-- ==== Sys2Proof/Word.lean ====
section
/-! DEFINITION. The byte of the gallery link (R189). Every other quantity of the unit is a whole number of a
stated range (R59) and is a `Nat` or an `Int`. -/

namespace Sys2Proof

/-- One byte as the link carries it (R189). -/
abbrev Byte := BitVec 8

end Sys2Proof
end

