-- ==== Sys2Proof/Syntax.lean ====
section
/-! DEFINITION. The commands of spec/opcode_table.json, one constructor per row, and what their operands are made of. -/

namespace Sys2Proof

/-- The two ports (section 2.1): upstream toward the controller, downstream toward the spout heads. -/
inductive Port where
  | up
  | dp
deriving DecidableEq, Repr

/-- The lanes, numbered 0 to 3 (section 4.3). -/
inductive LaneId where
  | lane0
  | lane1
  | lane2
  | lane3
deriving DecidableEq, Repr

/-- A frame between its delimiters (R133, R189). The length field is the length of the payload: a good frame has no
other (R136 step 2). -/
structure Frame where
  dest : Byte
  src : Byte
  kind : Byte
  payload : List Byte
  check : BitVec 16
deriving DecidableEq, Repr

/-- Arguments of ROUTE_SET in their byte order (R191). -/
structure RouteSetArgs where
  index : Nat
  address : Byte
  role : Byte
deriving DecidableEq, Repr

/-- Arguments of PARAM_SET (R48). -/
structure ParamSetArgs where
  lane : Nat
  id : Nat
  value : Nat
deriving DecidableEq, Repr

/-- Arguments of CURVE_SET (R51). -/
structure CurveSetArgs where
  lane : Nat
  regime : Nat
  count : Nat
  index : Nat
  force : Nat
  flow : Nat
deriving DecidableEq, Repr

/-- Arguments of BANK_READ (R56). -/
structure BankReadArgs where
  lane : Nat
  bank : Nat
  part : Nat
  first : Nat
deriving DecidableEq, Repr

/-- Arguments of LANE_MODE (R88). -/
structure LaneModeArgs where
  lane : Nat
  mode : Nat
deriving DecidableEq, Repr

/-- Arguments of ORDER_POST (R71) as the layout gives them. -/
structure OrderPostArgs where
  lane : Nat
  tag : Nat
  gangTag : Nat
  gangSize : Nat
  noTrickle : Nat
  targets : List Nat
  vehicle : List Byte
deriving DecidableEq, Repr

/-- Arguments of RECORD_TAKE (R168). -/
structure RecordTakeArgs where
  part : Nat
  tag : Nat
deriving DecidableEq, Repr

/-- Arguments of SCALE_RESULT (R128). -/
structure ScaleResultArgs where
  tag : Nat
  netKg : Nat
deriving DecidableEq, Repr

/-- Arguments of COUNTERS_READ (R183). -/
structure CountersReadArgs where
  group : Nat
  clear : Byte
deriving DecidableEq, Repr

/-- The commands. A request row carries the source address of its REQ frame and `body`: the payload bytes after the
request kind, that is the tag and the arguments as they arrived (R179). UNKNOWN_REQUEST carries the whole payload,
which may lack even the kind. -/
inductive Instr where
  | powerOn (straps : BitVec 7)
  | resetPinAssert
  | resetPinRelease (straps : BitVec 7)
  | startDelimiter (port : Port)
  | overlongFrame (port : Port) (data : List Byte)
  | lineBreak (port : Port)
  | linkDown (port : Port)
  | frameEnd (port : Port) (data : List Byte)
  | frameClassify (port : Port) (frame : Frame)
  | sample (lane : LaneId) (frame : Frame)
  | silenceExpiry (lane : LaneId)
  | openTimerExpiry (lane : LaneId)
  | closeTimerExpiry (lane : LaneId)
  | fallTimerExpiry (lane : LaneId)
  | settleTimerExpiry (lane : LaneId)
  | gangTimerExpiry (lane : LaneId)
  | restartBoundExpiry
  | dpSelection
  | upSelection
  | transmitEnd (port : Port)
  | ident (src : Byte) (body : List Byte)
  | routeSet (src : Byte) (body : List Byte)
  | routeClear (src : Byte) (body : List Byte)
  | routeRead (src : Byte) (body : List Byte)
  | paramSet (src : Byte) (body : List Byte)
  | curveSet (src : Byte) (body : List Byte)
  | commit (src : Byte) (body : List Byte)
  | bankRead (src : Byte) (body : List Byte)
  | laneMode (src : Byte) (body : List Byte)
  | zeroCal (src : Byte) (body : List Byte)
  | orderPost (src : Byte) (body : List Byte)
  | orderCancel (src : Byte) (body : List Byte)
  | orderList (src : Byte) (body : List Byte)
  | laneRead (src : Byte) (body : List Byte)
  | recordTake (src : Byte) (body : List Byte)
  | scaleResult (src : Byte) (body : List Byte)
  | faultClear (src : Byte) (body : List Byte)
  | totalClear (src : Byte) (body : List Byte)
  | countersRead (src : Byte) (body : List Byte)
  | restart (src : Byte) (body : List Byte)
  | unknownRequest (src : Byte) (payload : List Byte)
deriving DecidableEq, Repr

end Sys2Proof
end

