-- ==== Sys2Proof/Decode.lean ====
section
/-! DEFINITION. Bytes on the link: byte order, check word and the frame checks of the receiver (chapter 12, R136), the
arguments of each request kind read from their byte positions (R191) and written back, and the table's own decoder. -/

namespace Sys2Proof

/-! ### Byte order (R189) -/

/-- A number of two bytes, most significant byte first. -/
def be16 (n : Nat) : List Byte := [BitVec.ofNat 8 (n / 256), BitVec.ofNat 8 n]

/-- A number of four bytes, most significant byte first. -/
def be32 (n : Nat) : List Byte := be16 (n / 65536) ++ be16 n

/-- A signed number of two bytes, two's complement. -/
def be16s (x : Int) : List Byte := be16 (x.emod 65536).toNat

/-- A signed number of four bytes, two's complement. -/
def be32s (x : Int) : List Byte := be32 (x.emod 4294967296).toNat

/-- The number two bytes carry. -/
def rd16 (hi lo : Byte) : Nat := hi.toNat * 256 + lo.toNat

/-- The number four bytes carry. -/
def rd32 (b3 b2 b1 b0 : Byte) : Nat := rd16 b3 b2 * 65536 + rd16 b1 b0

/-- The signed number two bytes carry. -/
def rd16s (hi lo : Byte) : Int := (hi ++ lo).toInt

/-! ### Frame kinds (R189) -/

/-- Kind byte of a measurement frame. -/
def kindMeas : Byte := 0x21

/-- Kind byte of a gate command frame. -/
def kindGate : Byte := 0x32

/-- Kind byte of a request frame. -/
def kindReq : Byte := 0x40

/-- Kind byte of a reply frame. -/
def kindReply : Byte := 0x41

/-- Kind byte of a note frame. -/
def kindNote : Byte := 0x48

/-! ### The check word (R189) -/

/-- One bit of the division by x^16 + x^12 + x^5 + 1, the register's top bit leading. -/
def crcShift (r : BitVec 16) : BitVec 16 := if r.msb then (r <<< 1) ^^^ 0x1021#16 else r <<< 1

/-- One byte fed most significant bit first. -/
def crcByte (r : BitVec 16) (b : Byte) : BitVec 16 :=
  crcShift (crcShift (crcShift (crcShift (crcShift (crcShift (crcShift (crcShift (r ^^^ (b ++ 0#8)))))))))

/-- The check word over bytes in line order, the register preset to 0xFFFF. PRESUMED (log 10): each bit is fed at the
register's top, the usual reading of a preset register. -/
def checkWord (bytes : List Byte) : BitVec 16 := bytes.foldl crcByte 0xFFFF#16

/-- Header and payload of a frame in line order: what its check word covers. -/
def headerAndPayload (dest src kind : Byte) (payload : List Byte) : List Byte :=
  [dest, src, kind, BitVec.ofNat 8 payload.length] ++ payload

/-- A frame the unit makes, with its check word computed afresh. -/
def makeFrame (dest src kind : Byte) (payload : List Byte) : Frame :=
  { dest, src, kind, payload, check := checkWord (headerAndPayload dest src kind payload) }

/-! ### The receiver's checks (R136) -/

/-- What the checks on a closed buffer give: a good frame, or the counter that a failed frame raises. -/
inductive FrameCheck where
  | good (frame : Frame)
  | formError
  | checkError
deriving DecidableEq, Repr

/-- The four checks of R136 in their order. -/
def checkFrame : List Byte → FrameCheck
  | dest :: src :: kind :: len :: rest =>
    if rest.length < 2 then .formError
    else
      let payload := rest.take (rest.length - 2)
      if 48 < len.toNat ∨ len.toNat ≠ payload.length then .formError
      else if dest.toNat = 0 ∨ 127 < dest.toNat ∨ src.toNat = 0 ∨ 126 < src.toNat then .formError
      else
        match rest.drop (rest.length - 2) with
        | [hi, lo] =>
          if checkWord (headerAndPayload dest src kind payload) = hi ++ lo then
            .good { dest, src, kind, payload, check := hi ++ lo }
          else .checkError
        | _ => .formError
  | _ => .formError

/-- The bytes of a frame between its delimiters. -/
def frameBytes (f : Frame) : List Byte :=
  headerAndPayload f.dest f.src f.kind f.payload ++ [f.check.extractLsb' 8 8, f.check.extractLsb' 0 8]

/-! ### Request arguments (R191) -/

/-- A one-byte argument: an index, a lane, a force flag. -/
def decodeByteArg : List Byte → Option Nat
  | b :: _ => some b.toNat
  | [] => none

/-- The bytes of a one-byte argument. -/
def encodeByteArg (n : Nat) : List Byte := [BitVec.ofNat 8 n]

/-- The order tag of ORDER_CANCEL. -/
def decodeTagArg : List Byte → Option Nat
  | t1 :: t0 :: _ => some (rd16 t1 t0)
  | _ => none

/-- The bytes of an order tag. -/
def encodeTagArg (tag : Nat) : List Byte := be16 tag

/-- ROUTE_SET: index 1, address 1, role 1. -/
def decodeRouteSet : List Byte → Option RouteSetArgs
  | i :: a :: r :: _ => some { index := i.toNat, address := a, role := r }
  | _ => none

/-- The argument bytes of ROUTE_SET. -/
def encodeRouteSet (a : RouteSetArgs) : List Byte := [BitVec.ofNat 8 a.index, a.address, a.role]

/-- PARAM_SET: lane 1, id 1, value 4. -/
def decodeParamSet : List Byte → Option ParamSetArgs
  | l :: i :: v3 :: v2 :: v1 :: v0 :: _ => some { lane := l.toNat, id := i.toNat, value := rd32 v3 v2 v1 v0 }
  | _ => none

/-- The argument bytes of PARAM_SET. -/
def encodeParamSet (a : ParamSetArgs) : List Byte := [BitVec.ofNat 8 a.lane, BitVec.ofNat 8 a.id] ++ be32 a.value

/-- CURVE_SET: lane 1, regime 1, count 1, index 1, force 2, flow 4. -/
def decodeCurveSet : List Byte → Option CurveSetArgs
  | l :: r :: c :: i :: f1 :: f0 :: q3 :: q2 :: q1 :: q0 :: _ =>
    some { lane := l.toNat, regime := r.toNat, count := c.toNat, index := i.toNat, force := rd16 f1 f0,
           flow := rd32 q3 q2 q1 q0 }
  | _ => none

/-- The argument bytes of CURVE_SET. -/
def encodeCurveSet (a : CurveSetArgs) : List Byte :=
  [BitVec.ofNat 8 a.lane, BitVec.ofNat 8 a.regime, BitVec.ofNat 8 a.count, BitVec.ofNat 8 a.index]
    ++ be16 a.force ++ be32 a.flow

/-- BANK_READ: lane 1, bank 1, part 1, first index 1. -/
def decodeBankRead : List Byte → Option BankReadArgs
  | l :: b :: p :: f :: _ => some { lane := l.toNat, bank := b.toNat, part := p.toNat, first := f.toNat }
  | _ => none

/-- The argument bytes of BANK_READ. -/
def encodeBankRead (a : BankReadArgs) : List Byte :=
  [BitVec.ofNat 8 a.lane, BitVec.ofNat 8 a.bank, BitVec.ofNat 8 a.part, BitVec.ofNat 8 a.first]

/-- LANE_MODE: lane 1, mode 1. -/
def decodeLaneMode : List Byte → Option LaneModeArgs
  | l :: m :: _ => some { lane := l.toNat, mode := m.toNat }
  | _ => none

/-- The argument bytes of LANE_MODE. -/
def encodeLaneMode (a : LaneModeArgs) : List Byte := [BitVec.ofNat 8 a.lane, BitVec.ofNat 8 a.mode]

/-- Takes `n` four-byte targets from the front of the payload, with what follows them (R191). -/
def takeTargets : Nat → List Byte → Option (List Nat × List Byte)
  | 0, rest => some ([], rest)
  | n + 1, b3 :: b2 :: b1 :: b0 :: rest =>
    match takeTargets n rest with
    | some (ts, after) => some (rd32 b3 b2 b1 b0 :: ts, after)
    | none => none
  | _ + 1, _ => none

/-- ORDER_POST: lane 1, tag 2, gang tag 1, gang size 1, no-trickle 1, target count 1, targets 4 each, vehicle tag
length 1, characters. None where the payload ends before the last of them (R179 step 3, R191). -/
def decodeOrderPost : List Byte → Option OrderPostArgs
  | l :: t1 :: t0 :: g :: z :: nt :: cnt :: rest =>
    match takeTargets cnt.toNat rest with
    | some (targets, len :: chars) =>
      if chars.length < len.toNat then none
      else some { lane := l.toNat, tag := rd16 t1 t0, gangTag := g.toNat, gangSize := z.toNat,
                  noTrickle := nt.toNat, targets, vehicle := chars.take len.toNat }
    | _ => none
  | _ => none

/-- The argument bytes of ORDER_POST. -/
def encodeOrderPost (a : OrderPostArgs) : List Byte :=
  [BitVec.ofNat 8 a.lane] ++ be16 a.tag
    ++ [BitVec.ofNat 8 a.gangTag, BitVec.ofNat 8 a.gangSize, BitVec.ofNat 8 a.noTrickle, BitVec.ofNat 8 a.targets.length]
    ++ a.targets.flatMap be32 ++ [BitVec.ofNat 8 a.vehicle.length] ++ a.vehicle

/-- RECORD_TAKE: part 1, expected tag 2. -/
def decodeRecordTake : List Byte → Option RecordTakeArgs
  | p :: t1 :: t0 :: _ => some { part := p.toNat, tag := rd16 t1 t0 }
  | _ => none

/-- The argument bytes of RECORD_TAKE. -/
def encodeRecordTake (a : RecordTakeArgs) : List Byte := [BitVec.ofNat 8 a.part] ++ be16 a.tag

/-- SCALE_RESULT: tag 2, net kg 4. -/
def decodeScaleResult : List Byte → Option ScaleResultArgs
  | t1 :: t0 :: n3 :: n2 :: n1 :: n0 :: _ => some { tag := rd16 t1 t0, netKg := rd32 n3 n2 n1 n0 }
  | _ => none

/-- The argument bytes of SCALE_RESULT. -/
def encodeScaleResult (a : ScaleResultArgs) : List Byte := be16 a.tag ++ be32 a.netKg

/-- COUNTERS_READ: group 1, clear 1. -/
def decodeCountersRead : List Byte → Option CountersReadArgs
  | g :: c :: _ => some { group := g.toNat, clear := c }
  | _ => none

/-- The argument bytes of COUNTERS_READ. -/
def encodeCountersRead (a : CountersReadArgs) : List Byte := [BitVec.ofNat 8 a.group, a.clear]

/-! ### The table's decoder -/

/-- The command that a word spells by the bits of spec/opcode_table.json. No row of this table has bits, so no word
spells a command (log 1). -/
def decodeTableWord (_nbits _w : Nat) : Option Instr := none

end Sys2Proof
end

