-- ==== Sys2Proof/Config.lean ====
section
/-! DEFINITION. What the spec leaves open: constants without a body, so that no proof can lean on a value. -/

namespace Sys2Proof

/-- Whether COUNTERS_READ reads a clear byte that is neither 0 nor 1 as set. Section 12.3 gives the byte no codes, and
R183 answers every request of a listed group OK, so of the other values only the reading as set or clear is free.
DESIGN CHOICE (log 11). -/
opaque Config.clearFlag : Byte → Bool

end Sys2Proof
end

