-- ==== Sys2Proof/Machine/State.lean ====
section
/-! DEFINITION. The state of the unit as plain data, block by block as section 2.1 lists the owners, and its value
after power-on (section 11.6). -/

namespace Sys2Proof.Machine

/-! ### Names -/

/-- Lane modes (R87). -/
inductive Mode where
  | outOfService
  | manual
  | auto
deriving DecidableEq, Repr

/-- Lane states of AUTO (section 6.1). -/
inductive LaneState where
  | idle
  | armed
  | gangWait
  | filling
  | trickle
  | cutoff
  | settling
  | indexing
  | fault
deriving DecidableEq, Repr

/-- Flow regimes, numbered 0 to 2 (section 3.1). -/
inductive Regime where
  | settled
  | aerated
  | flushing
deriving DecidableEq, Repr

/-- Hold causes (R95). -/
inductive HoldCause where
  | none
  | headSilent
  | headFault
  | noVehicle
  | probeActive
  | gateOpen
  | recordsFull
deriving DecidableEq, Repr

/-- Fault causes (section 6.1). -/
inductive FaultCause where
  | none
  | headSilent
  | headFault
  | runaway
  | gateStuck
deriving DecidableEq, Repr

/-- Cut causes (section 6.1). -/
inductive CutCause where
  | preact
  | levelProbe
  | permitLost
  | operator
  | cancel
  | fault
deriving DecidableEq, Repr

/-- How an order ends with a record (R74). -/
inductive OrderOutcome where
  | complete
  | cancelled
  | stopped
  | interrupted
  | faulted
  | gangTimeout
deriving DecidableEq, Repr

/-- How a restart completed (R187). -/
inductive Completion where
  | immediate
  | drained
  | bound
deriving DecidableEq, Repr

/-- One value per lane. -/
structure PerLane (α : Type) where
  l0 : α
  l1 : α
  l2 : α
  l3 : α
deriving DecidableEq, Repr

/-- The value of lane `n`. -/
def PerLane.get {α : Type} (v : PerLane α) : LaneId → α
  | .lane0 => v.l0
  | .lane1 => v.l1
  | .lane2 => v.l2
  | .lane3 => v.l3

/-- `v` with the value of one lane replaced. -/
def PerLane.set {α : Type} (v : PerLane α) (n : LaneId) (x : α) : PerLane α :=
  match n with
  | .lane0 => { v with l0 := x }
  | .lane1 => { v with l1 := x }
  | .lane2 => { v with l2 := x }
  | .lane3 => { v with l3 := x }

/-- The same value for every lane. -/
def PerLane.all {α : Type} (x : α) : PerLane α := { l0 := x, l1 := x, l2 := x, l3 := x }

/-- One value per flow regime. -/
structure PerRegime (α : Type) where
  settled : α
  aerated : α
  flushing : α
deriving DecidableEq, Repr

/-- The value of one regime. -/
def PerRegime.get {α : Type} (v : PerRegime α) : Regime → α
  | .settled => v.settled
  | .aerated => v.aerated
  | .flushing => v.flushing

/-- `v` with the value of one regime replaced. -/
def PerRegime.set {α : Type} (v : PerRegime α) (r : Regime) (x : α) : PerRegime α :=
  match r with
  | .settled => { v with settled := x }
  | .aerated => { v with aerated := x }
  | .flushing => { v with flushing := x }

/-- A running part-time timer: the time base count at its start and its duration in milliseconds (R90, R188).
A stopped timer is `none`. -/
structure Timer where
  start : BitVec 32
  duration : Nat
deriving DecidableEq, Repr

/-! ### Sample conditioner and lane counters (chapter 1) -/

/-- The four flags of a sample (R2, R190). -/
structure SampleFlags where
  bellowsDown : Bool
  levelProbe : Bool
  headFault : Bool
  gateMoving : Bool
deriving DecidableEq, Repr

/-- The head flags that the lane keeps (R2). GATE_MOVING is not kept. -/
structure HeadFlags where
  bellowsDown : Bool
  levelProbe : Bool
  headFault : Bool
deriving DecidableEq, Repr

/-- Conditioner state (chapter 1, first table). -/
structure Conditioner where
  prevTimestamp : Option (BitVec 16)
  history : List Int
  lastFlags : Option HeadFlags
  lastGate : Option Nat
deriving DecidableEq, Repr

/-- The five intake counters (R16) and the screened counter kept beside them (R162). -/
structure LaneCounters where
  samplesTaken : Nat
  duplicates : Nat
  gaps : Nat
  spikes : Nat
  formErrors : Nat
  screened : Nat
deriving DecidableEq, Repr

/-! ### Zero tracker and regime classifier (chapters 2 and 3) -/

/-- Zero tracker state (section 2.1). -/
structure ZeroTracker where
  tare : Int
  tareRef : Int
  holdAcc : Nat
  buildup : Bool
deriving DecidableEq, Repr

/-- Regime classifier state (section 3.1). -/
structure Classifier where
  pressureCand : Regime
  flushRun : Nat
  calmRun : Nat
  candidate : Regime
  active : Regime
  settleAcc : Nat
deriving DecidableEq, Repr

/-! ### Flow computer (chapter 4) -/

/-- A curve slot: force in counts, flow in g/s (R45). -/
structure Breakpoint where
  force : Nat
  flow : Nat
deriving DecidableEq, Repr

/-- A curve: the count and its sixteen slots (R45). -/
structure Curve where
  count : Nat
  slots : Vector Breakpoint 16
deriving DecidableEq, Repr

/-- The 28 parameters of a bank, in the order of their ids (R46). -/
structure Params where
  window : Nat
  spikeLimit : Nat
  gapLimit : Nat
  nominalInterval : Nat
  zeroBand : Nat
  zeroHold : Nat
  driftLimit : Nat
  pLow : Nat
  pHigh : Nat
  flushRun : Nat
  regimeSettle : Nat
  fillPosition : Nat
  tricklePosition : Nat
  flushPosition : Nat
  closedBand : Nat
  trickleBand : Nat
  fallTime : Nat
  trimLimit : Nat
  learnGain : Nat
  learnWindow : Nat
  confirmTime : Nat
  gateRetries : Nat
  settleTime : Nat
  settleFlow : Nat
  silenceTime : Nat
  reconcileGain : Nat
  reconcileWindow : Nat
  gangWait : Nat
deriving DecidableEq, Repr

/-- A lane bank: parameters and one curve per regime (R45). -/
structure Bank where
  params : Params
  curves : PerRegime Curve
deriving DecidableEq, Repr

/-- Flow computer state (section 4.1) with the OVERRANGE flag (R61). -/
structure FlowComputer where
  active : Bank
  staged : Bank
  commitPending : Bool
  meterFactor : Nat
  flow : Nat
  overrange : Bool
deriving DecidableEq, Repr

/-- Integrator state (R63 to R65). -/
structure Integrator where
  grams : Nat
  residue : Nat
  manualTotal : Nat
  manualResidue : Nat
  manualFull : Bool
deriving DecidableEq, Repr

/-! ### Orders and records (chapters 5 and 10) -/

/-- A compartment result (R108, R167). -/
structure CompResult where
  target : Nat
  cutoffGrams : Nat
  finalGrams : Nat
  overshoot : Int
  regime : Regime
  cause : CutCause
  overrange : Bool
  gap : Bool
  settleCut : Bool
  learned : Bool
deriving DecidableEq, Repr

/-- An order of the order store (R69). Its lane is the queue that holds it. -/
structure Order where
  tag : Nat
  vehicle : Option (List Byte)
  targets : List Nat
  gangTag : Nat
  gangSize : Option Nat
  noTrickle : Bool
  active : Bool
  compartment : Nat
  results : List CompResult
  cancelNoted : Bool
  reserved : Bool
deriving DecidableEq, Repr

/-- A completion record (R167). -/
structure Record where
  tag : Nat
  lane : LaneId
  vehicle : Option (List Byte)
  targetCount : Nat
  outcome : OrderOutcome
  faultCause : Option FaultCause
  factorAtEnd : Nat
  results : List CompResult
deriving DecidableEq, Repr

/-! ### Lane sequencer, learner and reconciliation (chapters 6 and 7) -/

/-- Cut-off data (R102). -/
structure CutoffData where
  grams : Nat
  regime : Regime
  cause : CutCause
deriving DecidableEq, Repr

/-- Lane sequencer state (section 6.1) with the GAP flag of the active compartment (R10). -/
structure Sequencer where
  mode : Mode
  state : LaneState
  holdCause : HoldCause
  faultCause : FaultCause
  silentMark : Bool
  liftMark : Bool
  gap : Bool
  wanted : Option Nat
  openRetries : Nat
  closeRetries : Nat
  cutoff : Option CutoffData
  quietRun : Nat
  silenceTimer : Option Timer
  openTimer : Option Timer
  closeTimer : Option Timer
  settleTimer : Option Timer
  fallTimer : Option Timer
  gangTimer : Option Timer
deriving DecidableEq, Repr

/-- A reconciliation entry that is present (section 7.4). -/
structure ReconEntry where
  tag : Nat
  metered : Nat
  factorAtEnd : Nat
  reconciled : Bool
deriving DecidableEq, Repr

/-- A lane engine with its sub-blocks (section 2.1). -/
structure Lane where
  cond : Conditioner
  counters : LaneCounters
  zero : ZeroTracker
  cls : Classifier
  flow : FlowComputer
  integ : Integrator
  seq : Sequencer
  trims : PerRegime Int
  recon : Option ReconEntry
  resumeMark : Bool
  screenedMark : Bool
deriving DecidableEq, Repr

/-! ### Ports (chapter 8) -/

/-- Receiver states (R134). -/
inductive Receiver where
  | hunt
  | inFrame (buffer : List Byte)
deriving DecidableEq, Repr

/-- Port counters (R148). -/
structure PortCounters where
  checkErrors : Nat
  formErrors : Nat
  fragments : Nat
  forwardDrops : Nat
deriving DecidableEq, Repr

/-- The receiving side of a port, which both ports have alike (R134 to R137, R148). -/
structure PortCommon where
  receiver : Receiver
  linkUp : Bool
  counters : PortCounters
deriving DecidableEq, Repr

/-- The two classes of an arbiter (R144, R145): the unit's own frames (DP: the position slots) and the forward queue. -/
inductive Served where
  | own
  | forward
deriving DecidableEq, Repr

/-- The five note slots in the order of their search (R145). -/
inductive NoteSlot where
  | lane (n : LaneId)
  | unit
deriving DecidableEq, Repr

/-- A reply in the reply queue, fixed when it is placed (R180). Its frame is made at its selection. -/
structure Reply where
  dest : Byte
  payload : List Byte
deriving DecidableEq, Repr

/-- The upstream port: its queues, note slots and arbiter records. -/
structure UpPort where
  common : PortCommon
  sending : Option Frame
  forward : List Frame
  replies : List Reply
  lastServed : Served
  lastNote : NoteSlot
  laneNotes : PerLane Bool
  unitNote : Bool
deriving DecidableEq, Repr

/-- The kinds of urgent entry (R140). -/
inductive UrgentKind where
  | headClose
  | isolationClose
deriving DecidableEq, Repr

/-- An entry of the urgent queue (R142). `sending`: selected, its end delimiter not yet sent. -/
structure UrgentEntry where
  lane : LaneId
  kind : UrgentKind
  dest : Byte
  sending : Bool
deriving DecidableEq, Repr

/-- The command in a position slot (R140). -/
structure SlotCommand where
  dest : Byte
  position : Nat
deriving DecidableEq, Repr

/-- The downstream port: its queues, slots and arbiter records. -/
structure DpPort where
  common : PortCommon
  sending : Option Frame
  forward : List Frame
  urgent : List UrgentEntry
  slots : PerLane (Option SlotCommand)
  lastServed : Served
  lastLane : LaneId
deriving DecidableEq, Repr

/-! ### Routes and responder (chapters 9 and 11) -/

/-- A used route table entry (R151). -/
inductive RouteEntry where
  | head (address : Byte) (lane : LaneId)
  | isolation (address : Byte) (lanes : PerLane Bool)
deriving DecidableEq, Repr

/-- The restart record: a forced RESTART accepted and not complete, with what its reply needs and its bound timer
(R185). -/
structure RestartRecord where
  src : Byte
  tagHi : Byte
  tagLo : Byte
  force : Nat
  bound : Timer
deriving DecidableEq, Repr

/-! ### The unit -/

/-- The state of the unit. `toSwitch`, `toLanes` and `toResponder` hold what one indivisible step has handed to a
block and that block's own step has not yet taken (log 6). `pending` is the queue of commands, first in first out. -/
structure State where
  straps : BitVec 7
  held : Bool
  clock : BitVec 32
  routes : Vector (Option RouteEntry) 16
  lanes : PerLane Lane
  orders : PerLane (List Order)
  records : List Record
  reservations : Nat
  up : UpPort
  dp : DpPort
  controller : Byte
  restart : Option RestartRecord
  unanswered : Nat
  wrongPort : Nat
  toSwitch : List (Port × Frame)
  toLanes : List (LaneId × Frame)
  toResponder : List (Byte × List Byte)
  pending : List Instr
deriving DecidableEq, Repr

/-! ### How a step may stop -/

/-- Faults of the machine: none. The spec gives every command an effect in every state; a lane FAULT (R110) is a lane
state. -/
inductive Fault where
deriving DecidableEq, Repr

/-- Refusals of the machine. -/
inductive Refusal where
  /-- Raised by `exec` for a command that has no meaning yet; no arm raises it in this model. Safe. -/
  | notModelled (mnemonic : String)
deriving DecidableEq, Repr

/-! ### Values after power-on -/

/-- The default parameters (R46). -/
def Params.default : Params where
  window := 8
  spikeLimit := 0
  gapLimit := 50
  nominalInterval := 20
  zeroBand := 40
  zeroHold := 2000
  driftLimit := 800
  pLow := 150
  pHigh := 250
  flushRun := 6
  regimeSettle := 1500
  fillPosition := 1000
  tricklePosition := 250
  flushPosition := 600
  closedBand := 20
  trickleBand := 500
  fallTime := 800
  trimLimit := 50000
  learnGain := 4
  learnWindow := 200000
  confirmTime := 1500
  gateRetries := 3
  settleTime := 4000
  settleFlow := 500
  silenceTime := 100
  reconcileGain := 8
  reconcileWindow := 50
  gangWait := 60000

/-- A curve of count 0 with every slot at force 0, flow 0 (R46). -/
def Curve.blank : Curve where
  count := 0
  slots := Vector.replicate 16 { force := 0, flow := 0 }

/-- The bank of power-on (R46). -/
def Bank.default : Bank where
  params := Params.default
  curves := { settled := Curve.blank, aerated := Curve.blank, flushing := Curve.blank }

/-- Conditioner after any reset (R17). -/
def Conditioner.cleared : Conditioner where
  prevTimestamp := none
  history := []
  lastFlags := none
  lastGate := none

/-- Lane counters at zero (R16, R162). -/
def LaneCounters.zero : LaneCounters where
  samplesTaken := 0
  duplicates := 0
  gaps := 0
  spikes := 0
  formErrors := 0
  screened := 0

/-- Classifier after any reset (R43). -/
def Classifier.cleared : Classifier where
  pressureCand := .settled
  flushRun := 0
  calmRun := 0
  candidate := .settled
  active := .settled
  settleAcc := 0

/-- Sequencer after a reset that leaves the lane in `mode`, its silence timer started at `now` (R117). -/
def Sequencer.cleared (mode : Mode) (now : BitVec 32) (silenceTime : Nat) : Sequencer where
  mode := mode
  state := .idle
  holdCause := .none
  faultCause := .none
  silentMark := false
  liftMark := false
  gap := false
  wanted := none
  openRetries := 0
  closeRetries := 0
  cutoff := none
  quietRun := 0
  silenceTimer := some { start := now, duration := silenceTime }
  openTimer := none
  closeTimer := none
  settleTimer := none
  fallTimer := none
  gangTimer := none

/-- A lane engine after power-on (R17, R31, R43, R57, R58, R61 to R65, R117, R120, R127, R139, R162). -/
def Lane.powerOn : Lane where
  cond := Conditioner.cleared
  counters := LaneCounters.zero
  zero := { tare := 0, tareRef := 0, holdAcc := 0, buildup := false }
  cls := Classifier.cleared
  flow := { active := Bank.default, staged := Bank.default, commitPending := false, meterFactor := 10000,
            flow := 0, overrange := false }
  integ := { grams := 0, residue := 0, manualTotal := 0, manualResidue := 0, manualFull := false }
  seq := Sequencer.cleared .outOfService 0 Params.default.silenceTime
  trims := { settled := 0, aerated := 0, flushing := 0 }
  recon := none
  resumeMark := false
  screenedMark := false

/-- Port counters at zero (R148). -/
def PortCounters.zero : PortCounters where
  checkErrors := 0
  formErrors := 0
  fragments := 0
  forwardDrops := 0

/-- The receiving side of a port after power-on: HUNT, DOWN, counters 0 (R149). -/
def PortCommon.powerOn : PortCommon where
  receiver := .hunt
  linkUp := false
  counters := PortCounters.zero

/-- The upstream port after power-on (R149, R175, R177). -/
def UpPort.powerOn : UpPort where
  common := PortCommon.powerOn
  sending := none
  forward := []
  replies := []
  lastServed := .forward
  lastNote := .unit
  laneNotes := PerLane.all false
  unitNote := false

/-- The downstream port after power-on (R149). -/
def DpPort.powerOn : DpPort where
  common := PortCommon.powerOn
  sending := none
  forward := []
  urgent := []
  slots := PerLane.all none
  lastServed := .forward
  lastLane := .lane3

/-- The unit after power-on or the release of the reset pin with the straps read as given (section 11.6). The queue
of commands is not the unit's and stays. -/
def State.powerOn (straps : BitVec 7) (pending : List Instr) : State where
  straps := straps
  held := false
  clock := 0
  routes := Vector.replicate 16 none
  lanes := PerLane.all Lane.powerOn
  orders := PerLane.all []
  records := []
  reservations := 0
  up := UpPort.powerOn
  dp := DpPort.powerOn
  controller := 0
  restart := none
  unanswered := 0
  wrongPort := 0
  toSwitch := []
  toLanes := []
  toResponder := []
  pending := pending

/-- The unit right after reset. The straps are pins and their reading is 1 here: DESIGN CHOICE (log 4). -/
def State.reset : State := State.powerOn 1 []

end Sys2Proof.Machine
end

