-- ==== Sys2Proof/Machine/Flags.lean ====
section
/-! DEFINITION. Flag bytes: the head flags read (R190) and every marks byte the unit sends (R190 to R192). Undefined
bits read are ignored, undefined bits sent are 0 (R189). -/

namespace Sys2Proof.Machine

/-- A flag at bit position `bit` of a flag byte. -/
def flagBit (bit : Nat) (set : Bool) : Byte := if set then BitVec.ofNat 8 (2 ^ bit) else 0

/-- The flags of a measurement: bit 0 BELLOWS_DOWN, bit 1 LEVEL_PROBE, bit 2 HEAD_FAULT, bit 3 GATE_MOVING; the
undefined bits are ignored (R2, R189, R190). -/
def readSampleFlags (b : Byte) : SampleFlags where
  bellowsDown := b.getLsbD 0
  levelProbe := b.getLsbD 1
  headFault := b.getLsbD 2
  gateMoving := b.getLsbD 3

/-- The flags of a sample that its lane keeps; GATE_MOVING decides nothing in the lane (R2). -/
def SampleFlags.kept (f : SampleFlags) : HeadFlags where
  bellowsDown := f.bellowsDown
  levelProbe := f.levelProbe
  headFault := f.headFault

/-- The not-applicable mark of a trailer, at bit 7 beside the state code (R190). -/
def notApplicableBit (mark : Bool) : Byte := flagBit 7 mark

/-- LANE_READ marks: BUILDUP, OVERRANGE, silent, MANUAL_FULL, commit pending (section 12.3). -/
def laneMarks (l : Lane) : Byte :=
  flagBit 0 l.zero.buildup ||| flagBit 1 l.flow.overrange ||| flagBit 2 l.seq.silentMark
    ||| flagBit 3 l.integ.manualFull ||| flagBit 4 l.flow.commitPending

/-- NOTE marks: SILENT, BUILDUP, SCREENED (R192). -/
def noteMarks (l : Lane) : Byte :=
  flagBit 0 l.seq.silentMark ||| flagBit 1 l.zero.buildup ||| flagBit 2 l.screenedMark

/-- Flags of a compartment result: OVERRANGE, GAP, SETTLE_CUT, LEARNED (R192). -/
def resultFlags (r : CompResult) : Byte :=
  flagBit 0 r.overrange ||| flagBit 1 r.gap ||| flagBit 2 r.settleCut ||| flagBit 3 r.learned

/-- Flags of an ORDER_LIST entry: active, no-trickle (R191). -/
def orderFlags (o : Order) : Byte := flagBit 0 o.active ||| flagBit 1 o.noTrickle

/-- The link byte: bit 0 UP is UP, bit 1 DP is UP (section 12.3). -/
def linkByte (s : State) : Byte := flagBit 0 s.up.common.linkUp ||| flagBit 1 s.dp.common.linkUp

end Sys2Proof.Machine
end

