-- ==== Sys2Proof/Machine/Operands.lean ====
section
/-! DEFINITION. What commands and payloads carry, read and written: lane numbers, code values (R193), measurement and
gate payloads (R190), route entries (R191), reply statuses, record parts and notes (R192). -/

namespace Sys2Proof.Machine

/-! ### Lane numbers -/

/-- The number of a lane. -/
def laneNum : LaneId → Nat
  | .lane0 => 0
  | .lane1 => 1
  | .lane2 => 2
  | .lane3 => 3

/-- The lane of a number, none above 3. -/
def laneOf : Nat → Option LaneId
  | 0 => some .lane0
  | 1 => some .lane1
  | 2 => some .lane2
  | 3 => some .lane3
  | _ => none

/-- All lanes in lane order. -/
def allLanes : List LaneId := [.lane0, .lane1, .lane2, .lane3]

/-- The lanes in the order the DP arbiter looks at the slots after last serving a lane (R144). -/
def lanesAfter : LaneId → List LaneId
  | .lane0 => [.lane1, .lane2, .lane3, .lane0]
  | .lane1 => [.lane2, .lane3, .lane0, .lane1]
  | .lane2 => [.lane3, .lane0, .lane1, .lane2]
  | .lane3 => [.lane0, .lane1, .lane2, .lane3]

/-- The note slots in the order of their search after last serving one (R145). -/
def notesAfter : NoteSlot → List NoteSlot
  | .lane .lane0 => [.lane .lane1, .lane .lane2, .lane .lane3, .unit, .lane .lane0]
  | .lane .lane1 => [.lane .lane2, .lane .lane3, .unit, .lane .lane0, .lane .lane1]
  | .lane .lane2 => [.lane .lane3, .unit, .lane .lane0, .lane .lane1, .lane .lane2]
  | .lane .lane3 => [.unit, .lane .lane0, .lane .lane1, .lane .lane2, .lane .lane3]
  | .unit => [.lane .lane0, .lane .lane1, .lane .lane2, .lane .lane3, .unit]

/-! ### Code values (R193) -/

/-- Codes of modes. -/
def Mode.code : Mode → Byte
  | .outOfService => 0
  | .manual => 1
  | .auto => 2

/-- The mode of a code, none for any other value. -/
def modeOf : Nat → Option Mode
  | 0 => some .outOfService
  | 1 => some .manual
  | 2 => some .auto
  | _ => none

/-- Codes of lane states. -/
def LaneState.code : LaneState → Byte
  | .idle => 0
  | .armed => 1
  | .gangWait => 2
  | .filling => 3
  | .trickle => 4
  | .cutoff => 5
  | .settling => 6
  | .indexing => 7
  | .fault => 8

/-- Codes of regimes. -/
def Regime.code : Regime → Byte
  | .settled => 0
  | .aerated => 1
  | .flushing => 2

/-- The regime of a number, none above 2. -/
def regimeOf : Nat → Option Regime
  | 0 => some .settled
  | 1 => some .aerated
  | 2 => some .flushing
  | _ => none

/-- Codes of hold causes. -/
def HoldCause.code : HoldCause → Byte
  | .none => 0
  | .headSilent => 1
  | .headFault => 2
  | .noVehicle => 3
  | .probeActive => 4
  | .gateOpen => 5
  | .recordsFull => 6

/-- Codes of fault causes, in one list with the hold causes. -/
def FaultCause.code : FaultCause → Byte
  | .none => 0
  | .headSilent => 1
  | .headFault => 2
  | .runaway => 7
  | .gateStuck => 8

/-- Codes of cut causes. -/
def CutCause.code : CutCause → Byte
  | .preact => 1
  | .levelProbe => 2
  | .permitLost => 3
  | .operator => 4
  | .cancel => 5
  | .fault => 6

/-- Codes of outcomes. -/
def OrderOutcome.code : OrderOutcome → Byte
  | .complete => 1
  | .cancelled => 2
  | .stopped => 3
  | .interrupted => 4
  | .faulted => 5
  | .gangTimeout => 6

/-- Codes of a restart's completion (R191). -/
def Completion.code : Completion → Byte
  | .immediate => 1
  | .drained => 2
  | .bound => 3

/-- Reply statuses (section 12.3). -/
inductive Status where
  | ok
  | adjusted
  | busy
  | state
  | badArg
  | badTable
  | full
  | duplicate
  | notFound
  | empty
  | unknown
deriving DecidableEq, Repr

/-- Codes of reply statuses. -/
def statusCode : Status → Byte
  | .ok => 0
  | .adjusted => 1
  | .busy => 2
  | .state => 3
  | .badArg => 4
  | .badTable => 5
  | .full => 6
  | .duplicate => 7
  | .notFound => 8
  | .empty => 9
  | .unknown => 10

/-! ### Measurement payloads (R2, R190) -/

/-- The fields of a sample as the lane uses them: pressure at most 6000, gate position at most 1000. -/
structure Meas where
  timestamp : BitVec 16
  force : Int
  pressure : Nat
  gate : Nat
  flags : SampleFlags
deriving DecidableEq, Repr

/-- Reads a payload of exactly ten bytes; any other length is no sample (R1). -/
def readMeas : List Byte → Option Meas
  | [t1, t0, f1, f0, p1, p0, g1, g0, flags, _pad] =>
    some { timestamp := t1 ++ t0, force := rd16s f1 f0, pressure := min 6000 (rd16 p1 p0),
           gate := min 1000 (rd16 g1 g0), flags := readSampleFlags flags }
  | _ => none

/-- The lane trailer (R139, R190). -/
def trailerBytes (state : LaneState) (notApplicable : Bool) (regime : Regime) (flow grams : Nat) : List Byte :=
  [state.code ||| notApplicableBit notApplicable, regime.code] ++ be32 flow ++ be32 grams

/-! ### Gate commands (R190) -/

/-- The payload of the unit's POSITION command. -/
def positionPayload (position : Nat) : List Byte := 1 :: be16 position

/-- The payload of the unit's CLOSE command, which carries position 0. -/
def closePayload : List Byte := 2 :: be16 0

/-- Whether a GATE payload is a closing command for a lane of the given closed band (R159): well formed, and CLOSE or a
POSITION at or below the band. -/
def isClosing (closedBand : Nat) : List Byte → Bool
  | [cmd, p1, p0] => cmd == 2 || (cmd == 1 && rd16 p1 p0 ≤ closedBand)
  | _ => false

/-! ### Route entries (R191) -/

/-- The lane set of an ISOLATION role byte's bits 0 to 3. -/
def laneSetOf (role : Byte) : PerLane Bool where
  l0 := role.getLsbD 0
  l1 := role.getLsbD 1
  l2 := role.getLsbD 2
  l3 := role.getLsbD 3

/-- The entry that an address and a role byte name, none where the role byte is out of range: a lane above 3, a set
that is empty or names a lane above 3, a HEAD byte with a bit outside its lane number (log 12). -/
def routeEntryOf (address role : Byte) : Option RouteEntry :=
  if role.toNat < 128 then
    match laneOf role.toNat with
    | some n => some (.head address n)
    | none => none
  else if role.toNat = 128 ∨ 128 + 15 < role.toNat then none
  else some (.isolation address (laneSetOf role))

/-- The station address of an entry. -/
def routeAddress : RouteEntry → Byte
  | .head a _ => a
  | .isolation a _ => a

/-- The two bytes of an entry; an unused entry is address 0 and role 0. -/
def routeBytes : Option RouteEntry → List Byte
  | none => [0, 0]
  | some (.head a n) => [a, BitVec.ofNat 8 (laneNum n)]
  | some (.isolation a ls) =>
    [a, flagBit 7 true ||| flagBit 0 ls.l0 ||| flagBit 1 ls.l1 ||| flagBit 2 ls.l2 ||| flagBit 3 ls.l3]

/-! ### Record parts (R192) -/

/-- Eight character bytes, unused ones 0, after the tag's length. -/
def vehicleBytes (v : Option (List Byte)) : List Byte :=
  let chars := v.getD []
  BitVec.ofNat 8 chars.length :: (chars ++ List.replicate (8 - chars.length) 0)

/-- Part 0 of a record. -/
def recordPart0 (r : Record) : List Byte :=
  be16 r.tag ++ [BitVec.ofNat 8 (laneNum r.lane)] ++ vehicleBytes r.vehicle
    ++ [BitVec.ofNat 8 r.targetCount, r.outcome.code, (r.faultCause.getD .none).code]
    ++ be16 r.factorAtEnd ++ [BitVec.ofNat 8 r.results.length]

/-- A compartment result as a record part. -/
def resultPart (c : CompResult) : List Byte :=
  be32 c.target ++ be32 c.cutoffGrams ++ be32 c.finalGrams ++ be32s c.overshoot
    ++ [c.regime.code, c.cause.code, resultFlags c]

end Sys2Proof.Machine
end

