-- ==== Sys2Proof/Machine/Ops.lean ====
section
/-! DEFINITION. The named operations over State that every meaning is built from: lanes, counters, timers, notes, routes,
queues, slots, the order store and the record store. -/

namespace Sys2Proof.Machine

/-! ### Counters and arithmetic -/

/-- A 32-bit counter raised by 1, stopping at 4,294,967,295 (R16, R148, R184). -/
def bump (n : Nat) : Nat := if n < 4294967295 then n + 1 else 4294967295

/-- Saturation to -32768 to 32767 (R11, R26). -/
def sat16 (x : Int) : Int := max (-32768) (min 32767 x)

/-- Saturation to the range of a signed 32-bit number (R167). -/
def sat32 (x : Int) : Int := max (-2147483648) (min 2147483647 x)

/-- `x` brought into minus to plus `limit` (R121, R123). -/
def clampTo (limit : Nat) (x : Int) : Int := max (-(limit : Int)) (min limit x)

/-- The sum of the entries divided by their number, truncated toward zero (R13, R59); 0 for an empty history. -/
def average (history : List Int) : Int := history.sum.tdiv history.length

/-! ### Hand-over between blocks -/

/-- Whether a block takes `x` next from the list of what has been handed to it: the list is in the order of hand-over
and its front comes first; with nothing waiting, `x` stands for its own hand-over (R136, R158, R176, log 6). -/
def inTurn {α : Type} [DecidableEq α] (waiting : List α) (x : α) : Bool :=
  match waiting with
  | [] => true
  | y :: _ => x = y

/-! ### Lanes -/

/-- The lane engine of lane `n`. -/
def State.lane (s : State) (n : LaneId) : Lane := s.lanes.get n

/-- `s` with lane `n` replaced. -/
def State.putLane (s : State) (n : LaneId) (l : Lane) : State := { s with lanes := s.lanes.set n l }

/-- `s` with lane `n` changed by `f`. -/
def State.onLane (s : State) (n : LaneId) (f : Lane → Lane) : State := s.putLane n (f (s.lane n))

/-- The parameters of the active bank of a lane. -/
def Lane.params (l : Lane) : Params := l.flow.active.params

/-- `l` with its sequencer changed by `f`. -/
def Lane.onSeq (l : Lane) (f : Sequencer → Sequencer) : Lane := { l with seq := f l.seq }

/-- The state as it is reported: IDLE outside AUTO (R87). -/
def Lane.reportedState (l : Lane) : LaneState :=
  match l.seq.mode with
  | .auto => l.seq.state
  | _ => .idle

/-- Whether the lane is in AUTO and in FILLING, TRICKLE, CUTOFF or SETTLING: the states in which cement may run. -/
def Lane.running (l : Lane) : Bool :=
  l.seq.mode == .auto &&
    match l.seq.state with
    | .filling | .trickle | .cutoff | .settling => true
    | _ => false

/-- Whether the lane is in AUTO and in FILLING or TRICKLE. -/
def Lane.pouring (l : Lane) : Bool :=
  l.seq.mode == .auto &&
    match l.seq.state with
    | .filling | .trickle => true
    | _ => false

/-! ### Note slots (R171) -/

/-- Lane `n`'s note slot becomes pending. -/
def State.raiseNote (s : State) (n : LaneId) : State :=
  { s with up := { s.up with laneNotes := s.up.laneNotes.set n true } }

/-- Lane `n`'s note slot becomes pending when `due`. -/
def State.raiseNoteIf (s : State) (n : LaneId) (due : Bool) : State := if due then s.raiseNote n else s

/-- The unit's note slot becomes pending. -/
def State.raiseUnitNote (s : State) : State := { s with up := { s.up with unitNote := true } }

/-- A change of lane state, which makes the lane's note slot pending (chapter 6, R171). -/
def State.enterState (s : State) (n : LaneId) (st : LaneState) : State :=
  (s.onLane n fun l => l.onSeq fun q => { q with state := st }).raiseNote n

/-! ### Timers (R90) -/

/-- A timer started now. -/
def State.startTimer (s : State) (ms : Nat) : Timer := { start := s.clock, duration := ms }

/-- The time base at a timer's expiry: where its count has not yet advanced by the duration, it is brought to it
(DESIGN CHOICE, log 3). -/
def State.atExpiry (s : State) (t : Timer) : State :=
  if (s.clock - t.start).toNat < t.duration then { s with clock := t.start + BitVec.ofNat 32 t.duration } else s

/-! ### Routes (R151) -/

/-- The used entries with their indices, in index order. -/
def State.usedRoutes (s : State) : List (Nat × RouteEntry) :=
  (s.routes.toList.zipIdx).filterMap fun p => p.1.map fun e => (p.2, e)

/-- The lane of which an address is the head, if it is one. -/
def State.headLane (s : State) (address : Byte) : Option LaneId :=
  s.routes.toList.findSome? fun e =>
    match e with
    | some (.head a n) => if a = address then some n else none
    | _ => none

/-- The head of lane `n`: the station entered as HEAD for it. -/
def State.headOf (s : State) (n : LaneId) : Option Byte :=
  s.routes.toList.findSome? fun e =>
    match e with
    | some (.head a m) => if m = n then some a else none
    | _ => none

/-- The isolation station of lane `n`: the station entered as ISOLATION with a set that includes it. -/
def State.isolationOf (s : State) (n : LaneId) : Option Byte :=
  s.routes.toList.findSome? fun e =>
    match e with
    | some (.isolation a ls) => if ls.get n then some a else none
    | _ => none

/-- Transparent mode: the straps read 0 or 127 (R146). -/
def State.transparent (s : State) : Bool := s.straps == 0 || s.straps == 127

/-- The unit's own station address. -/
def State.address (s : State) : Byte := s.straps.zeroExtend 8

/-! ### Forward queues (R138) -/

/-- A frame placed in the upstream forward queue, or dropped and counted when it holds 8. -/
def State.forwardUp (s : State) (f : Frame) : State :=
  if s.up.forward.length < 8 then { s with up := { s.up with forward := s.up.forward ++ [f] } }
  else
    let c := s.up.common.counters
    { s with up := { s.up with common := { s.up.common with
        counters := { c with forwardDrops := bump c.forwardDrops } } } }

/-- A frame placed in the downstream forward queue, or dropped and counted when it holds 8. -/
def State.forwardDown (s : State) (f : Frame) : State :=
  if s.dp.forward.length < 8 then { s with dp := { s.dp with forward := s.dp.forward ++ [f] } }
  else
    let c := s.dp.common.counters
    { s with dp := { s.dp with common := { s.dp.common with
        counters := { c with forwardDrops := bump c.forwardDrops } } } }

/-! ### Position slots and urgent queue (R140 to R142) -/

/-- A POSITION command placed in lane `n`'s slot, replacing an unsent one. Between the acceptance of a forced RESTART
and its completion the placement is omitted (R116). -/
def State.placePosition (s : State) (n : LaneId) (position : Nat) : State :=
  if s.restart.isSome then s
  else
    match s.headOf n with
    | some a => { s with dp := { s.dp with slots := s.dp.slots.set n (some { dest := a, position }) } }
    | none => s

/-- The unsent command of lane `n`'s slot withdrawn. -/
def State.withdrawPosition (s : State) (n : LaneId) : State :=
  { s with dp := { s.dp with slots := s.dp.slots.set n none } }

/-- Whether the urgent queue holds an entry of this lane and kind, unsent or in transmission. -/
def urgentHolds (q : List UrgentEntry) (n : LaneId) (k : UrgentKind) : Bool :=
  q.any fun e => e.lane == n && e.kind == k

/-- An urgent entry placed, unless one of its lane and kind is in the queue (R142). -/
def State.placeUrgent (s : State) (n : LaneId) (k : UrgentKind) (dest : Byte) : State :=
  if urgentHolds s.dp.urgent n k then s
  else { s with dp := { s.dp with urgent := s.dp.urgent ++ [{ lane := n, kind := k, dest, sending := false }] } }

/-- CLOSE for the head of lane `n` placed in the urgent queue. -/
def State.placeHeadClose (s : State) (n : LaneId) : State :=
  match s.headOf n with
  | some a => s.placeUrgent n .headClose a
  | none => s

/-- CLOSE for the isolation station of lane `n` placed in the urgent queue, where one is routed (R114). -/
def State.placeIsolationClose (s : State) (n : LaneId) : State :=
  match s.isolationOf n with
  | some a => s.placeUrgent n .isolationClose a
  | none => s

/-! ### Order store and record store (chapters 5 and 10) -/

/-- The queue of lane `n`, head first. -/
def State.queue (s : State) (n : LaneId) : List Order := s.orders.get n

/-- `s` with the queue of lane `n` replaced. -/
def State.putQueue (s : State) (n : LaneId) (q : List Order) : State := { s with orders := s.orders.set n q }

/-- The active order of lane `n`: the head of its queue where that carries the active mark (R70). -/
def State.activeOrder (s : State) (n : LaneId) : Option Order :=
  match s.queue n with
  | o :: _ => if o.active then some o else none
  | [] => none

/-- `s` with the head of lane `n`'s queue changed by `f`. -/
def State.onHead (s : State) (n : LaneId) (f : Order → Order) : State :=
  match s.queue n with
  | o :: rest => s.putQueue n (f o :: rest)
  | [] => s

/-- The target of the compartment that the order's index names, in kilograms. -/
def Order.targetKg (o : Order) : Nat := o.targets.getD (o.compartment - 1) 0

/-- Whether a record slot can be reserved: records held plus reservations below 24 (R95, R164). -/
def State.canReserve (s : State) : Bool := s.records.length + s.reservations < 24

/-- A slot reserved for the order at the head of lane `n` (R164). -/
def State.reserve (s : State) (n : LaneId) : State :=
  ({ s with reservations := s.reservations + 1 }).onHead n fun o => { o with reserved := true }

/-- The reservation of the order at the head of lane `n` returned (R165). -/
def State.returnReservation (s : State) (n : LaneId) : State :=
  match s.activeOrder n with
  | some o =>
    if o.reserved then
      ({ s with reservations := s.reservations - 1 }).onHead n fun p => { p with reserved := false }
    else s
  | none => s

/-- The record of an order that ends (R167). -/
def recordOf (n : LaneId) (l : Lane) (o : Order) (outcome : OrderOutcome) : Record where
  tag := o.tag
  lane := n
  vehicle := o.vehicle
  targetCount := o.targets.length
  outcome := outcome
  faultCause := if outcome = .faulted then some l.seq.faultCause else none
  factorAtEnd := l.flow.meterFactor
  results := o.results

/-- The active order of lane `n` ends with a record: the record joins the tail of the list, the order's reservation is
consumed, the order leaves the queue and the lane's note slot becomes pending (R74, R165, R166). -/
def State.endWithRecord (s : State) (n : LaneId) (outcome : OrderOutcome) : State :=
  match s.queue n with
  | o :: rest =>
    if o.active then
      let r := recordOf n (s.lane n) o outcome
      let left := if o.reserved then s.reservations - 1 else s.reservations
      ({ s with records := s.records ++ [r], reservations := left }.putQueue n rest).raiseNote n
    else s
  | [] => s

/-- The lanes that wait in the gang of a tag: those in AUTO and in GANG_WAIT whose active order carries it (R79).
The set is computed, not stored (log 13). -/
def State.waitingSet (s : State) (gangTag : Nat) : List LaneId :=
  allLanes.filter fun n =>
    (s.lane n).seq.mode == .auto && (s.lane n).seq.state == .gangWait &&
      match s.activeOrder n with
      | some o => o.gangTag == gangTag
      | none => false

/-- Every order present in the unit (R70). -/
def State.presentOrders (s : State) : List Order := allLanes.flatMap s.queue

end Sys2Proof.Machine
end

