-- ==== Sys2Proof/Machine/Conditioner.lean ====
section
/-! DEFINITION. Chapter 1: contact with the head, and stage 1 of a sample's handling. -/

namespace Sys2Proof.Machine

/-- Clip marks (R12). -/
inductive Clip where
  | up
  | down
  | none
deriving DecidableEq, Repr

/-- What conditioning hands to the later stages (R6). -/
structure SampleRecord where
  first : Bool
  interval : Nat
  net : Int
  clip : Clip
  average : Int
  pressure : Nat
  gate : Nat
  flags : SampleFlags
deriving DecidableEq, Repr

/-- The history cleared (R14). -/
def Conditioner.clearHistory (c : Conditioner) : Conditioner := { c with history := [] }

/-- The history and the first-sample state cleared (R14). -/
def Conditioner.clearBoth (c : Conditioner) : Conditioner := { c with history := [], prevTimestamp := none }

/-- Receipt of a sample, in any mode: the silence timer restarts, and a set silent mark is cleared with the note slot
made pending (R3). -/
def State.contact (s : State) (n : LaneId) : State :=
  let silent := (s.lane n).seq.silentMark
  let t := s.startTimer (s.lane n).params.silenceTime
  (s.onLane n fun l => l.onSeq fun q => { q with silenceTimer := some t, silentMark := false }).raiseNoteIf n silent

/-- The sample's flags and gate position copied, and the lift mark set where BELLOWS_DOWN is clear (R4, R6, R94). -/
def Lane.copyReport (l : Lane) (m : Meas) : Lane :=
  { l with
    cond := { l.cond with lastFlags := some m.flags.kept, lastGate := some m.gate }
    seq := { l.seq with liftMark := l.seq.liftMark || !m.flags.bellowsDown } }

/-- The net force before limiting (R11). -/
def netForce (force tare : Int) : Int := sat16 (force - tare)

/-- The spike limiter (R12): the limited net force and the clip mark. -/
def limitSpike (spikeLimit : Nat) (history : List Int) (net : Int) : Int × Clip :=
  if spikeLimit = 0 ∨ history = [] then (net, .none)
  else
    let a := average history
    if a + spikeLimit < net then (a + spikeLimit, .up)
    else if net < a - spikeLimit then (a - spikeLimit, .down)
    else (net, .none)

/-- A net force appended to the history, the oldest entry leaving when it would hold more than the window (R13). -/
def pushHistory (window : Nat) (history : List Int) (net : Int) : List Int :=
  let h := history ++ [net]
  if window < h.length then h.drop 1 else h

/-- Net force, limiter and history of a sample that is not discarded, and the record handed on (R6, R11 to R13). The
counters are those of a sample taken. -/
def Lane.condition (l : Lane) (m : Meas) (first : Bool) (interval : Nat) : Lane × SampleRecord :=
  let l := l.copyReport m
  let (net, clip) := limitSpike l.params.spikeLimit l.cond.history (netForce m.force l.zero.tare)
  let history := pushHistory l.params.window l.cond.history net
  let c := l.counters
  ({ l with
      cond := { l.cond with history, prevTimestamp := some m.timestamp }
      counters := { c with
        samplesTaken := bump c.samplesTaken
        spikes := if clip = .none then c.spikes else bump c.spikes } },
   { first, interval, net, clip, average := average history, pressure := m.pressure, gate := m.gate,
     flags := m.flags })

/-- Stage 1 (R7 to R10): the first sample, the duplicate (none), the gap sample and the ordinary sample. -/
def Lane.stage1 (l : Lane) (m : Meas) : Lane × Option SampleRecord :=
  match l.cond.prevTimestamp with
  | none =>
    let (l, r) := l.condition m true 0
    (l, some r)
  | some prev =>
    let raw := (m.timestamp - prev).toNat
    let c := l.counters
    if raw = 0 then ({ l with counters := { c with duplicates := bump c.duplicates } }, none)
    else if l.params.gapLimit < raw then
      let l := { l with
        counters := { c with gaps := bump c.gaps }
        seq := { l.seq with gap := l.seq.gap || l.running } }
      let (l, r) := l.condition m false l.params.nominalInterval
      (l, some r)
    else
      let (l, r) := l.condition m false raw
      (l, some r)

end Sys2Proof.Machine
end

