-- ==== Sys2Proof/Machine/ZeroTracker.lean ====
section
/-! DEFINITION. Chapter 2: the drift band, stage 2 of a sample's handling, and zero calibration. -/

namespace Sys2Proof.Machine

/-- Lower end of the drift band (R19). -/
def driftLow (ref : Int) (limit : Nat) : Int := max (-32768) (ref - limit)

/-- Upper end of the drift band (R19). -/
def driftHigh (ref : Int) (limit : Nat) : Int := min 32767 (ref + limit)

/-- A candidate tare settled against the drift band: the tracker after it, and whether BUILDUP was set where it was
clear (R23, R29). -/
def ZeroTracker.settle (z : ZeroTracker) (limit : Nat) (candidate : Int) : ZeroTracker × Bool :=
  if candidate < driftLow z.tareRef limit then
    ({ z with tare := driftLow z.tareRef limit, buildup := true }, !z.buildup)
  else if driftHigh z.tareRef limit < candidate then
    ({ z with tare := driftHigh z.tareRef limit, buildup := true }, !z.buildup)
  else ({ z with tare := candidate }, false)

/-- The tare step of an average (R22). -/
def tareStep (average : Int) : Int :=
  if average.natAbs < 8 then average.sign else average.tdiv 8

/-- Whether a sample qualifies for zero tracking (R20). -/
def Lane.qualifies (l : Lane) (r : SampleRecord) : Bool :=
  (match l.seq.mode with
   | .outOfService => false
   | .manual => true
   | .auto =>
     match l.seq.state with
     | .idle | .armed | .gangWait | .indexing | .fault => true
     | .filling | .trickle | .cutoff | .settling => false)
  && r.gate ≤ l.params.closedBand && r.average.natAbs ≤ l.params.zeroBand

/-- Stage 2 (R20 to R23): the hold accumulator and, at the end of a full hold, the tare step. The flag says that
BUILDUP was set where it was clear. -/
def Lane.stage2 (l : Lane) (r : SampleRecord) : Lane × Bool :=
  if l.qualifies r then
    let acc := l.zero.holdAcc + r.interval
    if acc < l.params.zeroHold * 10 then ({ l with zero := { l.zero with holdAcc := acc } }, false)
    else
      let (z, new) := ({ l.zero with holdAcc := 0 } : ZeroTracker).settle l.params.driftLimit
        (l.zero.tare + tareStep r.average)
      ({ l with zero := z }, new)
  else ({ l with zero := { l.zero with holdAcc := 0 } }, false)

/-- The new tare and tare reference of a zero calibration (R26). -/
def Lane.calibration (l : Lane) : Int := sat16 (l.zero.tare + average l.cond.history)

/-- An accepted ZERO_CAL (R26). -/
def Lane.calibrate (l : Lane) : Lane :=
  { l with
    zero := { tare := l.calibration, tareRef := l.calibration, holdAcc := 0, buildup := false }
    cond := l.cond.clearHistory }

/-- When ZERO_CAL is accepted (R27). -/
def Lane.mayCalibrate (l : Lane) : Bool :=
  (match l.seq.mode with
   | .outOfService | .manual => true
   | .auto => l.seq.state == .idle || l.seq.state == .fault)
  && (match l.cond.lastGate with
      | some g => g ≤ l.params.closedBand
      | none => false)
  && !l.cond.history.isEmpty

end Sys2Proof.Machine
end

