-- ==== Sys2Proof/Machine/Classifier.lean ====
section
/-! DEFINITION. Chapter 3: stage 3 of a sample's handling. -/

namespace Sys2Proof.Machine

/-- The pressure candidate step (R33). -/
def pressureStep (p : Params) (pressure : Nat) (cand : Regime) : Regime :=
  if pressure < p.pLow then .settled else if p.pHigh ≤ pressure then .aerated else cand

/-- The flush run step (R34). -/
def flushStep (clip : Clip) (run : Nat) : Nat :=
  match clip with
  | .up => min 255 (run + 1)
  | .down | .none => 0

/-- The candidate step (R35, R36), after the pressure and flush run steps. -/
def Classifier.candidateStep (c : Classifier) (p : Params) (clip : Clip) : Classifier :=
  if c.candidate = .flushing then
    let calm := if clip = .none then c.calmRun + 1 else 0
    if p.window ≤ calm then { c with candidate := c.pressureCand, calmRun := 0 }
    else { c with calmRun := calm }
  else if p.flushRun ≤ c.flushRun then { c with candidate := .flushing, calmRun := 0 }
  else { c with candidate := c.pressureCand }

/-- The switching step (R38, R39), with the candidate the previous sample left. -/
def Classifier.switchStep (c : Classifier) (p : Params) (previous : Regime) (interval : Nat) : Classifier :=
  if c.candidate = c.active then { c with settleAcc := 0 }
  else if c.candidate = .flushing then { c with active := .flushing, settleAcc := 0 }
  else
    let acc := if c.candidate = previous then c.settleAcc + interval else 0
    if p.regimeSettle * 10 ≤ acc then { c with active := c.candidate, settleAcc := 0 }
    else { c with settleAcc := acc }

/-- The four steps of stage 3 in their order (R32). -/
def Classifier.step (c : Classifier) (p : Params) (r : SampleRecord) : Classifier :=
  let previous := c.candidate
  let c := { c with
    pressureCand := pressureStep p r.pressure c.pressureCand
    flushRun := flushStep r.clip c.flushRun }
  (c.candidateStep p r.clip).switchStep p previous r.interval

/-- Stage 3: the lane after it and, as the regime-change mark, the regime it left (R32). -/
def Lane.stage3 (l : Lane) (r : SampleRecord) : Lane × Option Regime :=
  let c := l.cls.step l.params r
  ({ l with cls := c }, if c.active = l.cls.active then none else some l.cls.active)

/-- Entry to service: every item as after a reset (R42). -/
def Lane.classifierReset (l : Lane) : Lane := { l with cls := Classifier.cleared }

end Sys2Proof.Machine
end

