-- ==== Sys2Proof/Machine/Flow.lean ====
section
/-! DEFINITION. Chapter 4: parameters and curves, stage 4 of a sample's handling, commit and application. -/

namespace Sys2Proof.Machine

/-! ### Curves -/

/-- The breakpoints of a curve: the slots below its count (R45). -/
def Curve.points (c : Curve) : List Breakpoint := c.slots.toList.take c.count

/-- The walk of R52 from breakpoint `i` on, after breakpoint `prev`: the index of the first that fails. -/
def walkFails (prev : Breakpoint) (i : Nat) : List Breakpoint → Option Nat
  | [] => none
  | b :: rest => if b.force ≤ prev.force ∨ b.flow < prev.flow then some i else walkFails b (i + 1) rest

/-- The index at which a curve fails validation, none where it is valid (R47, R52). -/
def curveFails (points : List Breakpoint) : Option Nat :=
  match points with
  | [] => some 0
  | b :: rest =>
    if b.force ≠ 0 ∨ b.flow ≠ 0 then some 0
    else
      match walkFails b 1 rest with
      | some i => some i
      | none => if rest = [] then some 1 else none

/-- A valid curve (R47). -/
def Curve.valid (c : Curve) : Bool := c.count ≤ 16 && (curveFails c.points).isNone

/-- All three curves of a bank valid. -/
def Bank.curvesValid (b : Bank) : Bool :=
  b.curves.settled.valid && b.curves.aerated.valid && b.curves.flushing.valid

/-- The first failure of a bank in the order 0, 1, 2: the regime number and the index (R52). -/
def Bank.firstFailure (b : Bank) : Option (Nat × Nat) :=
  match curveFails b.curves.settled.points with
  | some i => some (0, i)
  | none =>
    match curveFails b.curves.aerated.points with
    | some i => some (1, i)
    | none =>
      match curveFails b.curves.flushing.points with
      | some i => some (2, i)
      | none => none

/-- Curve flow of an average above 0: interpolation between breakpoints, the last flow at or beyond the last (R60). -/
def curveFlowAt : List Breakpoint → Nat → Nat
  | [], _ => 0
  | [p], _ => p.flow
  | p :: q :: rest, a =>
    if a < q.force then p.flow + (a - p.force) * (q.flow - p.flow) / (q.force - p.force)
    else curveFlowAt (q :: rest) a

/-- Curve flow q of an average (R60). -/
def curveFlow (points : List Breakpoint) (a : Int) : Nat := if a ≤ 0 then 0 else curveFlowAt points a.toNat

/-- Overrange: the average at or above the force of the last breakpoint (R61). -/
def overrangeAt (points : List Breakpoint) (a : Int) : Bool :=
  match points.getLast? with
  | some p => (p.force : Int) ≤ a
  | none => false

/-! ### Stage 4 -/

/-- The figures of stage 4 that stage 5 acts on (R68). -/
structure Figures where
  curveFlow : Nat
  flow : Nat
  preact : Nat
  cutoffDue : Bool
  trickleDue : Bool
  overrange : Bool
deriving DecidableEq, Repr

/-- Integration of an increment into the compartment (R63). -/
def Integrator.addGrams (g : Integrator) (p : Nat) : Integrator :=
  { g with grams := g.grams + (g.residue + p) / 10000, residue := (g.residue + p) % 10000 }

/-- Integration of an increment into the manual total, which stops at its bound (R65). -/
def Integrator.addManual (g : Integrator) (p : Nat) : Integrator :=
  if g.manualFull then g
  else if 4294967295 < g.manualTotal + (g.manualResidue + p) / 10000 then
    { g with manualTotal := 4294967295, manualResidue := 0, manualFull := true }
  else
    { g with manualTotal := g.manualTotal + (g.manualResidue + p) / 10000
             manualResidue := (g.manualResidue + p) % 10000 }

/-- The preact of a flow (R67). -/
def preactOf (flow fallTime : Nat) (trim : Int) : Nat := (((flow * fallTime / 1000 : Nat) : Int) + trim).toNat

/-- The trickle threshold of a target in kilograms, in grams (R68). -/
def trickleThreshold (targetKg trickleBandKg : Nat) : Nat := targetKg * 1000 - trickleBandKg * 1000

/-- Whether a sample is metered for OVERRANGE and integration: MANUAL, or AUTO with cement running (R61, R63). -/
def Lane.metering (l : Lane) : Bool := l.seq.mode == .manual || l.running

/-- Stage 4 (R60 to R63, R65, R67, R68). `targetKg` is the target of the active compartment. -/
def Lane.stage4 (l : Lane) (r : SampleRecord) (targetKg : Nat) : Lane × Figures :=
  let points := (l.flow.active.curves.get l.cls.active).points
  let q := curveFlow points r.average
  let flow := q * l.flow.meterFactor / 10000
  let high := overrangeAt points r.average
  let integ :=
    if r.first then l.integ
    else if l.seq.mode = .manual then l.integ.addManual (flow * r.interval)
    else if l.running then l.integ.addGrams (flow * r.interval)
    else l.integ
  let preact := if l.pouring then preactOf flow l.params.fallTime (l.trims.get l.cls.active) else 0
  let cutoffDue := l.pouring && targetKg * 1000 ≤ integ.grams + preact
  let trickleDue := l.seq.mode == .auto && l.seq.state == .filling && !cutoffDue
    && trickleThreshold targetKg l.params.trickleBand ≤ integ.grams
  ({ l with
      integ
      flow := { l.flow with flow, overrange := l.flow.overrange || (high && l.metering) } },
   { curveFlow := q, flow, preact, cutoffDue, trickleDue, overrange := high })

/-! ### Writing the staged bank -/

/-- The value of a parameter by its id (R46). -/
def Params.get (p : Params) : Nat → Nat
  | 0 => p.window
  | 1 => p.spikeLimit
  | 2 => p.gapLimit
  | 3 => p.nominalInterval
  | 4 => p.zeroBand
  | 5 => p.zeroHold
  | 6 => p.driftLimit
  | 7 => p.pLow
  | 8 => p.pHigh
  | 9 => p.flushRun
  | 10 => p.regimeSettle
  | 11 => p.fillPosition
  | 12 => p.tricklePosition
  | 13 => p.flushPosition
  | 14 => p.closedBand
  | 15 => p.trickleBand
  | 16 => p.fallTime
  | 17 => p.trimLimit
  | 18 => p.learnGain
  | 19 => p.learnWindow
  | 20 => p.confirmTime
  | 21 => p.gateRetries
  | 22 => p.settleTime
  | 23 => p.settleFlow
  | 24 => p.silenceTime
  | 25 => p.reconcileGain
  | 26 => p.reconcileWindow
  | 27 => p.gangWait
  | _ => 0

/-- `p` with the parameter of an id replaced (R46). -/
def Params.put (p : Params) (id v : Nat) : Params :=
  match id with
  | 0 => { p with window := v }
  | 1 => { p with spikeLimit := v }
  | 2 => { p with gapLimit := v }
  | 3 => { p with nominalInterval := v }
  | 4 => { p with zeroBand := v }
  | 5 => { p with zeroHold := v }
  | 6 => { p with driftLimit := v }
  | 7 => { p with pLow := v }
  | 8 => { p with pHigh := v }
  | 9 => { p with flushRun := v }
  | 10 => { p with regimeSettle := v }
  | 11 => { p with fillPosition := v }
  | 12 => { p with tricklePosition := v }
  | 13 => { p with flushPosition := v }
  | 14 => { p with closedBand := v }
  | 15 => { p with trickleBand := v }
  | 16 => { p with fallTime := v }
  | 17 => { p with trimLimit := v }
  | 18 => { p with learnGain := v }
  | 19 => { p with learnWindow := v }
  | 20 => { p with confirmTime := v }
  | 21 => { p with gateRetries := v }
  | 22 => { p with settleTime := v }
  | 23 => { p with settleFlow := v }
  | 24 => { p with silenceTime := v }
  | 25 => { p with reconcileGain := v }
  | 26 => { p with reconcileWindow := v }
  | 27 => { p with gangWait := v }
  | _ => p

/-- The range of a parameter (R46), its bound by another parameter taken from the same bank. The window and p high are
stored by rules of their own (R49, R50). -/
def Params.range (p : Params) : Nat → Nat × Nat
  | 0 => (1, 32)
  | 1 => (0, 32767)
  | 2 => (2, 1000)
  | 3 => (1, p.gapLimit)
  | 4 => (0, 2000)
  | 5 => (100, 60000)
  | 6 => (0, 8000)
  | 7 => (0, 5999)
  | 8 => (0, 6000)
  | 9 => (1, 255)
  | 10 => (0, 10000)
  | 11 => (1, 1000)
  | 12 => (1, 1000)
  | 13 => (1, 1000)
  | 14 => (0, 100)
  | 15 => (0, 50000)
  | 16 => (0, 5000)
  | 17 => (0, 500000)
  | 18 => (0, 16)
  | 19 => (0, 1000000)
  | 20 => (100, 10000)
  | 21 => (0, 7)
  | 22 => (200, 30000)
  | 23 => (0, 20000)
  | 24 => (10, 5000)
  | 25 => (0, 16)
  | 26 => (1, 200)
  | 27 => (1000, 600000)
  | _ => (0, 0)

/-- A value stored to the window (R49). -/
def windowStored (v : Nat) : Nat :=
  if v < 2 then 1 else if v < 4 then 2 else if v < 8 then 4 else if v < 16 then 8 else if v < 32 then 16 else 32

/-- The value a parameter stores for a value given (R48 to R50). -/
def Params.stored (p : Params) (id v : Nat) : Nat :=
  match id with
  | 0 => windowStored v
  | 8 => if min 6000 v ≤ p.pLow then p.pLow + 1 else min 6000 v
  | _ => max (p.range id).1 (min (p.range id).2 v)

/-- The coupled partner that a stored value changes, with its new value (R50). -/
def Params.partner (p : Params) (id stored : Nat) : Option (Nat × Nat) :=
  match id with
  | 2 => if stored < p.nominalInterval then some (3, stored) else none
  | 7 => if p.pHigh ≤ stored then some (8, stored + 1) else none
  | _ => none

/-- The parameters after a write (R48 to R50). -/
def Params.write (p : Params) (id v : Nat) : Params :=
  let stored := p.stored id v
  match p.partner id stored with
  | some (id2, v2) => (p.put id stored).put id2 v2
  | none => p.put id stored

/-- A curve with one slot written and its count set (R51). -/
def Curve.write (c : Curve) (count index : Nat) (b : Breakpoint) : Curve :=
  { count, slots := c.slots.setIfInBounds index b }

/-! ### Application -/

/-- The lane's own part of an application (R55): the staged bank copied, the pending flag cleared, the history cleared
where the window differs, both accumulators at 0, the tare and the trims clamped. The flag says that BUILDUP was set
where it was clear. -/
def Lane.applyBank (l : Lane) : Lane × Bool :=
  let b := l.flow.staged
  let (z, new) := ({ l.zero with holdAcc := 0 } : ZeroTracker).settle b.params.driftLimit l.zero.tare
  ({ l with
      cond := if b.params.window = l.params.window then l.cond else l.cond.clearHistory
      zero := z
      cls := { l.cls with settleAcc := 0 }
      flow := { l.flow with active := b, commitPending := false }
      trims := { settled := clampTo b.params.trimLimit l.trims.settled
                 aerated := clampTo b.params.trimLimit l.trims.aerated
                 flushing := clampTo b.params.trimLimit l.trims.flushing } }, new)

/-- The staged bank of lane `n` applied (R55). -/
def State.applyBank (s : State) (n : LaneId) : State :=
  (s.putLane n (s.lane n).applyBank.1).raiseNoteIf n (s.lane n).applyBank.2

/-- A pending commit of lane `n` applied (R54). -/
def State.applyPending (s : State) (n : LaneId) : State :=
  if (s.lane n).flow.commitPending then s.applyBank n else s

/-- Whether a commit is applied at once: OUT_OF_SERVICE, MANUAL, or AUTO and IDLE (R53). -/
def Lane.appliesAtOnce (l : Lane) : Bool := l.seq.mode != .auto || l.seq.state == .idle

end Sys2Proof.Machine
end

