-- ==== Sys2Proof/Machine/Learning.lean ====
section
/-! DEFINITION. Chapter 7: learning from a compartment result, the reconciliation entry and the meter factor. -/

namespace Sys2Proof.Machine

/-- Whether a compartment result qualifies for learning (R122). -/
def learnable (r : CompResult) (cancelNoted : Bool) (learnWindow : Nat) : Bool :=
  r.cause == .preact && !cancelNoted && !r.settleCut && !r.gap && r.overshoot.natAbs ≤ learnWindow

/-- The trim step of an overshoot (R123). -/
def learnStep (overshoot : Int) (gain : Nat) : Int := (overshoot * gain).tdiv 16

/-- The learner's decision on a result: a qualifying one moves the trim of its regime at cut-off and is marked
LEARNED (R122, R123). -/
def Lane.learn (l : Lane) (cancelNoted : Bool) (r : CompResult) : Lane × CompResult :=
  if learnable r cancelNoted l.params.learnWindow then
    let trim := clampTo l.params.trimLimit (l.trims.get r.regime - learnStep r.overshoot l.params.learnGain)
    ({ l with trims := l.trims.set r.regime trim }, { r with learned := true })
  else (l, r)

/-- M of a completed order: the sum of the final grams, saturating (R125). -/
def meteredGrams (results : List CompResult) : Nat := min 4294967295 (results.map (·.finalGrams)).sum

/-- The reconciliation entry of a completed order (R125). -/
def reconOf (l : Lane) (o : Order) : ReconEntry where
  tag := o.tag
  metered := meteredGrams o.results
  factorAtEnd := l.flow.meterFactor
  reconciled := false

/-- Whether a weighed mass S is outside the reconcile window of M, an M of 0 always being so (R129). -/
def outsideWindow (m : Nat) (s : Nat) (window : Nat) : Bool :=
  m = 0 || m * window < ((s : Int) - m).natAbs * 1000

/-- The meter factor after a weighed mass S inside the window (R130). -/
def correctedFactor (e : ReconEntry) (s gain factor : Nat) : Nat :=
  let correction := ((e.factorAtEnd : Int) * ((s : Int) - e.metered) * gain).tdiv (16 * e.metered)
  (max 9000 (min 11000 ((factor : Int) + correction))).toNat

/-- A SCALE_RESULT decided against the entry of a lane: the lane after it and whether the result was applied
(R129, R130). -/
def Lane.reconcile (l : Lane) (e : ReconEntry) (netKg : Nat) : Lane × Bool :=
  let s := netKg * 1000
  let done := some { e with reconciled := true }
  if outsideWindow e.metered s l.params.reconcileWindow then ({ l with recon := done }, false)
  else
    ({ l with
        recon := done
        flow := { l.flow with
          meterFactor := correctedFactor e s l.params.reconcileGain l.flow.meterFactor } }, true)

end Sys2Proof.Machine
end

