-- ==== Sys2Proof/Machine/LaneCycle.lean ====
section
/-! DEFINITION. Chapter 6 with the gangs of chapter 5: the lane states, their entries, cut-off, settling, faults, and
stage 5 of a sample's handling. -/

namespace Sys2Proof.Machine

/-! ### Preconditions (R95) -/

/-- Preconditions 1 to 5 in their order: the first that fails, NONE when all hold. -/
def Lane.precondition (l : Lane) : HoldCause :=
  let f := l.cond.lastFlags.getD { bellowsDown := false, levelProbe := false, headFault := false }
  if l.seq.silentMark then .headSilent
  else if f.headFault then .headFault
  else if !(f.bellowsDown && l.seq.liftMark) then .noVehicle
  else if f.levelProbe then .probeActive
  else
    match l.cond.lastGate with
    | some g => if g ≤ l.params.closedBand then .none else .gateOpen
    | none => .gateOpen

/-- The hold cause of lane `n` set. -/
def State.setHold (s : State) (n : LaneId) (h : HoldCause) : State :=
  s.onLane n fun l => l.onSeq fun q => { q with holdCause := h }

/-! ### Entry to FILLING (R97) -/

/-- What entry to FILLING sets in the lane engine, the position it wants and the state it gives. -/
def Lane.enterFilling (l : Lane) (now : BitVec 32) (position : Nat) (st : LaneState) : Lane :=
  { l with
    integ := { l.integ with grams := 0, residue := 0 }
    flow := { l.flow with overrange := false }
    seq := { l.seq with
      state := st
      holdCause := .none
      gap := false
      liftMark := false
      openRetries := 0
      closeRetries := 0
      cutoff := none
      wanted := some position
      openTimer := some { start := now, duration := l.params.confirmTime }
      gangTimer := none } }

/-- The opening position and the state of an entry to FILLING (R97). -/
def Lane.opening (l : Lane) (o : Order) (targetKg : Nat) : Nat × LaneState :=
  if !o.noTrickle && trickleThreshold targetKg l.params.trickleBand = 0 then
    (l.params.tricklePosition, .trickle)
  else if l.cls.active = .flushing then (min l.params.flushPosition l.params.fillPosition, .filling)
  else (l.params.fillPosition, .filling)

/-- Entry of lane `n` to FILLING of compartment `k` of its active order (R97). -/
def State.enterFilling (s : State) (n : LaneId) (k : Nat) : State :=
  match s.activeOrder n with
  | some o =>
    let (position, st) := (s.lane n).opening o (o.targets.getD (k - 1) 0)
    let s := s.onHead n fun o => { o with compartment := k }
    let s := s.onLane n fun l => l.enterFilling s.clock position st
    (s.raiseNote n).placePosition n position
  | none => s

/-! ### Gangs (R80 to R82) -/

/-- Every lane of a gang enters FILLING of compartment 1 (R81). -/
def State.releaseGang (s : State) (members : List LaneId) : State :=
  members.foldl (fun s n => s.enterFilling n 1) s

/-- Entry of lane `n` to GANG_WAIT, with the release when the count reaches the size (R80, R81). -/
def State.enterGangWait (s : State) (n : LaneId) (o : Order) : State :=
  let t := s.startTimer (s.lane n).params.gangWait
  let s := (s.onLane n fun l => l.onSeq fun q => { q with gangTimer := some t }).enterState n .gangWait
  let members := s.waitingSet o.gangTag
  if o.gangSize.getD 0 ≤ members.length then s.releaseGang members else s

/-- Drop-out of lane `n` from GANG_WAIT to ARMED (R82). -/
def State.dropOut (s : State) (n : LaneId) (cause : HoldCause) : State :=
  let s := s.returnReservation n
  (s.onLane n fun l => l.onSeq fun q => { q with gangTimer := none, holdCause := cause }).enterState n .armed

/-! ### ARMED, IDLE and take-up (R73, R93, R95, R96) -/

/-- The test of the six preconditions in ARMED and, when all hold, the reservation and the way on (R95, R96, R164). -/
def State.testArmed (s : State) (n : LaneId) : State :=
  match s.activeOrder n with
  | some o =>
    match (s.lane n).precondition with
    | .none =>
      if s.canReserve then
        let s := (s.setHold n .none).reserve n
        if o.gangTag = 0 then s.enterFilling n 1 else s.enterGangWait n o
      else s.setHold n .recordsFull
    | cause => s.setHold n cause
  | none => s

/-- Take-up of the head of the queue (R73): the active mark, ARMED and the first test. -/
def State.takeUp (s : State) (n : LaneId) : State :=
  match s.queue n with
  | o :: _ =>
    if o.active then s
    else
      let s := s.onHead n fun o => { o with active := true }
      (s.enterState n .armed).testArmed n
  | [] => s

/-- Entry of lane `n` to IDLE: a pending bank is applied, then the head of the queue is taken up (R93). -/
def State.enterIdle (s : State) (n : LaneId) : State :=
  let s := s.onLane n fun l => l.onSeq fun q => { q with holdCause := .none, faultCause := .none }
  ((s.enterState n .idle).applyPending n).takeUp n

/-! ### Compartment results (R108) -/

/-- The overshoot of a compartment (R108, R167). -/
def overshootOf (finalGrams targetKg : Nat) : Int := sat32 ((finalGrams : Int) - (targetKg * 1000 : Nat))

/-- A result with the lane's grams and flags as they stand. -/
def Lane.resultOf (l : Lane) (targetKg cutoffGrams : Nat) (regime : Regime) (cause : CutCause)
    (settleCut : Bool) : CompResult where
  target := targetKg
  cutoffGrams := cutoffGrams
  finalGrams := l.integ.grams
  overshoot := overshootOf l.integ.grams targetKg
  regime := regime
  cause := cause
  overrange := l.flow.overrange
  gap := l.seq.gap
  settleCut := settleCut
  learned := false

/-- The lane's cut-off data; where it is absent, the grams and regime as they stand. -/
def Lane.cutoffData (l : Lane) : CutoffData :=
  l.seq.cutoff.getD { grams := l.integ.grams, regime := l.cls.active, cause := .fault }

/-- The result of a compartment whose settling ends, whole or cut by silence (R92, R107, R108). -/
def Lane.settledResult (l : Lane) (targetKg : Nat) (settleCut : Bool) : CompResult :=
  let d := l.cutoffData
  l.resultOf targetKg d.grams d.regime d.cause settleCut

/-- The result of a compartment that an entry to FAULT ends, none where no compartment is under way (R92, R108). -/
def Lane.faultResult (l : Lane) (targetKg : Nat) : Option CompResult :=
  match l.seq.state with
  | .filling | .trickle => some (l.resultOf targetKg l.integ.grams l.cls.active .fault false)
  | .cutoff => some (l.resultOf targetKg l.cutoffData.grams l.cutoffData.regime .fault false)
  | .settling => some (l.settledResult targetKg true)
  | _ => none

/-- The compartment of lane `n` ends with a result: it joins the order's list, and what belongs to the compartment
alone is cleared (R10, R69; log 14). -/
def State.closeCompartment (s : State) (n : LaneId) (r : CompResult) : State :=
  (s.onHead n fun o => { o with results := o.results ++ [r] }).onLane n fun l =>
    l.onSeq fun q => { q with cutoff := none, wanted := none, gap := false }

/-! ### FAULT (R110) -/

/-- Entry of lane `n` to FAULT (R110). The urgent commands of the cause are placed beside it. -/
def State.enterFault (s : State) (n : LaneId) (cause : FaultCause) : State :=
  let s := s.withdrawPosition n
  let s :=
    match s.activeOrder n with
    | some o =>
      match (s.lane n).faultResult o.targetKg with
      | some r => s.closeCompartment n r
      | none => s
    | none => s
  let s := s.onLane n fun l => l.onSeq fun q =>
    { q with
      holdCause := .none
      faultCause := cause
      openTimer := none
      closeTimer := none
      settleTimer := none
      fallTimer := none
      gangTimer := none }
  (s.enterState n .fault).endWithRecord n .faulted

/-- Entry to FAULT with CLOSE for the head and for the isolation station (R92, R101, R114). No rule says which of the two
entries stands first in the urgent queue; the model puts that of the head first (DESIGN CHOICE, log 26). -/
def State.faultClosingAll (s : State) (n : LaneId) (cause : FaultCause) : State :=
  ((s.placeHeadClose n).placeIsolationClose n).enterFault n cause

/-! ### Cut-off and settling (R102 to R107) -/

/-- Cut-off of lane `n` (R102). -/
def State.cutOff (s : State) (n : LaneId) (cause : CutCause) : State :=
  let s := (s.placeHeadClose n).withdrawPosition n
  let t := s.startTimer (s.lane n).params.confirmTime
  let s := s.onLane n fun l => l.onSeq fun q =>
    { q with
      openTimer := none
      closeTimer := some t
      closeRetries := 0
      cutoff := some { grams := l.integ.grams, regime := l.cls.active, cause } }
  s.enterState n .cutoff

/-- A fall timer, which with fall time 0 expires at its start (R106). -/
def State.startFallTimer (s : State) (ms : Nat) : Option Timer := if ms = 0 then none else some (s.startTimer ms)

/-- Entry of lane `n` to SETTLING (R104). -/
def State.enterSettling (s : State) (n : LaneId) : State :=
  let p := (s.lane n).params
  let settle := s.startTimer p.settleTime
  let fall := s.startFallTimer p.fallTime
  let s := s.onLane n fun l => l.onSeq fun q =>
    { q with closeTimer := none, settleTimer := some settle, fallTimer := fall, quietRun := 0 }
  s.enterState n .settling

/-- Entry of lane `n` to INDEXING (R109). -/
def State.enterIndexing (s : State) (n : LaneId) : State :=
  (s.onLane n fun l => l.onSeq fun q => { q with liftMark := false, holdCause := .noVehicle }).enterState n .indexing

/-- The active order of lane `n` ends with a record and the lane enters IDLE; a COMPLETE order also writes the
reconciliation entry (R74, R107, R125). -/
def State.endOrder (s : State) (n : LaneId) (outcome : OrderOutcome) : State :=
  match s.activeOrder n with
  | some o =>
    let s := if outcome = .complete then s.onLane n fun l => { l with recon := some (reconOf l o) } else s
    (s.endWithRecord n outcome).enterIdle n
  | none => s

/-- The outcome of an order whose compartment has settled, none where the lane goes on to INDEXING (R107). -/
def settledOutcome (o : Order) (cause : CutCause) : Option OrderOutcome :=
  if o.cancelNoted || cause == .cancel then some .cancelled
  else if cause == .operator then some .stopped
  else if cause == .permitLost then some .interrupted
  else if o.compartment < o.targets.length then none
  else some .complete

/-- The end of settling of lane `n` (R107): the result is formed, learned from and appended, and the lane goes on. -/
def State.endSettling (s : State) (n : LaneId) : State :=
  match s.activeOrder n with
  | some o =>
    let (l, r) := (s.lane n).learn o.cancelNoted ((s.lane n).settledResult o.targetKg false)
    let s := (s.putLane n (l.onSeq fun q => { q with settleTimer := none, fallTimer := none })).closeCompartment n r
    match settledOutcome o r.cause with
    | some outcome => s.endOrder n outcome
    | none => s.enterIndexing n
  | none => s

/-! ### Stage 5 -/

/-- Stage 5 in FILLING and TRICKLE (R98 to R101). -/
def State.decidePouring (s : State) (n : LaneId) (r : SampleRecord) (fig : Figures) : State :=
  let s := s.onLane n fun l =>
    if l.params.closedBand < r.gate then l.onSeq fun q => { q with openTimer := none } else l
  let noTrickle := (s.activeOrder n).any (·.noTrickle)
  if r.flags.headFault then s.faultClosingAll n .headFault
  else if r.flags.levelProbe then s.cutOff n .levelProbe
  else if !r.flags.bellowsDown then s.cutOff n .permitLost
  else if fig.cutoffDue then s.cutOff n .preact
  else if (s.lane n).seq.state == .filling && fig.trickleDue && !noTrickle then
    let position := (s.lane n).params.tricklePosition
    let s := s.onLane n fun l => l.onSeq fun q => { q with wanted := some position }
    (s.enterState n .trickle).placePosition n position
  else s

/-- Stage 5 in SETTLING (R106). -/
def State.decideSettling (s : State) (n : LaneId) : State :=
  let l := s.lane n
  let quiet :=
    if l.seq.fallTimer.isSome then 0
    else if l.flow.flow ≤ l.params.settleFlow then l.seq.quietRun + 1 else 0
  let s := s.onLane n fun l => l.onSeq fun q => { q with quietRun := quiet }
  if l.params.window ≤ quiet then s.endSettling n else s

/-- Stage 5 in INDEXING (R109). -/
def State.decideIndexing (s : State) (n : LaneId) : State :=
  match (s.lane n).precondition with
  | .none =>
    match s.activeOrder n with
    | some o => s.enterFilling n (o.compartment + 1)
    | none => s
  | cause => s.setHold n cause

/-- Stage 5 in GANG_WAIT (R82, R96). -/
def State.decideGangWait (s : State) (n : LaneId) : State :=
  match (s.lane n).precondition with
  | .none => s
  | cause => s.dropOut n cause

/-- The per-sample tests of stage 5, by mode and state. -/
def State.stage5Tests (s : State) (n : LaneId) (r : SampleRecord) (fig : Figures) : State :=
  match (s.lane n).seq.mode with
  | .outOfService => s
  | .manual => s
  | .auto =>
    match (s.lane n).seq.state with
    | .idle => s.takeUp n
    | .armed => s.testArmed n
    | .gangWait => s.decideGangWait n
    | .filling => s.decidePouring n r fig
    | .trickle => s.decidePouring n r fig
    | .cutoff => if r.gate ≤ (s.lane n).params.closedBand then s.enterSettling n else s
    | .settling => s.decideSettling n
    | .indexing => s.decideIndexing n
    | .fault => s

/-- The position of the regime command for a change of active regime, none between SETTLED and AERATED (R40). -/
def Lane.regimePosition (l : Lane) (left : Regime) : Option Nat :=
  if l.cls.active = .flushing then some (min l.params.flushPosition l.params.fillPosition)
  else if left = .flushing then some l.params.fillPosition
  else none

/-- The regime command, the last act of stage 5 of a sample that changed the regime in FILLING (R40). -/
def State.regimeCommand (s : State) (n : LaneId) (left : Regime) : State :=
  match (s.lane n).regimePosition left with
  | some position =>
    (s.onLane n fun l => l.onSeq fun q => { q with wanted := some position }).placePosition n position
  | none => s

/-- Whether the lane is in AUTO and in FILLING. -/
def Lane.inFilling (l : Lane) : Bool := l.seq.mode == .auto && l.seq.state == .filling

/-- Stage 5 (R40, chapter 6). `left` is the regime-change mark. -/
def State.stage5 (s : State) (n : LaneId) (r : SampleRecord) (left : Option Regime) (fig : Figures) : State :=
  let t := s.stage5Tests n r fig
  match left with
  | some old => if (s.lane n).inFilling && (t.lane n).inFilling then t.regimeCommand n old else t
  | none => t

end Sys2Proof.Machine
end

