-- ==== Sys2Proof/Machine/Sample.lean ====
section
/-! DEFINITION. SAMPLE: a routed measurement through its lane engine, and its annotation (R1 to R18, R139). -/

namespace Sys2Proof.Machine

/-- A command of a running unit: while the reset pin is held nothing acts (R188, log 9). -/
def State.whileRunning (s : State) (f : State → State) : State := if s.held then s else f s

/-- A malformed routed measurement: forwarded upward unchanged and counted as a lane form error (R1). -/
def State.malformed (s : State) (n : LaneId) (f : Frame) : State :=
  (s.onLane n fun l =>
    { l with counters := { l.counters with formErrors := bump l.counters.formErrors } }).forwardUp f

/-- Stage 2 of lane `n`, with the note of a BUILDUP newly set (R23). -/
def State.stage2 (s : State) (n : LaneId) (r : SampleRecord) : State :=
  (s.putLane n ((s.lane n).stage2 r).1).raiseNoteIf n ((s.lane n).stage2 r).2

/-- Stage 3 of lane `n`, with the note of a change of active regime (R41). -/
def State.stage3 (s : State) (n : LaneId) (r : SampleRecord) : State :=
  (s.putLane n ((s.lane n).stage3 r).1).raiseNoteIf n ((s.lane n).stage3 r).2.isSome

/-- The target of lane `n`'s active compartment in kilograms, 0 with no active order. -/
def State.activeTarget (s : State) (n : LaneId) : Nat :=
  match s.activeOrder n with
  | some o => o.targetKg
  | none => 0

/-- Stages 2 to 5 on a sample that stage 1 has handed on (R5). -/
def State.laterStages (s : State) (n : LaneId) (r : SampleRecord) : State :=
  let s := s.stage2 n r
  let left := ((s.lane n).stage3 r).2
  let s := s.stage3 n r
  let (l, fig) := (s.lane n).stage4 r (s.activeTarget n)
  (s.putLane n l).stage5 n r left fig

/-- The handling of one sample before its annotation (R3 to R5). -/
def State.takeSample (s : State) (n : LaneId) (m : Meas) : State :=
  let s := s.contact n
  match (s.lane n).seq.mode with
  | .outOfService => s.onLane n fun l => l.copyReport m
  | _ =>
    let (l, r) := (s.lane n).stage1 m
    let s := s.putLane n l
    match r with
    | some r => s.laterStages n r
    | none => s

/-- The grams of a trailer: the manual total in MANUAL, otherwise the compartment grams as held (R139). -/
def Lane.trailerGrams (l : Lane) : Nat :=
  match l.seq.mode with
  | .manual => l.integ.manualTotal
  | _ => l.integ.grams

/-- The annotated frame of a routed measurement (R139). -/
def Lane.annotate (l : Lane) (f : Frame) : Frame :=
  makeFrame f.dest f.src f.kind
    (f.payload ++ trailerBytes l.reportedState l.resumeMark l.cls.active l.flow.flow l.trailerGrams)

/-- The annotation of lane `n`'s frame: the trailer handed over clears the resume mark, and the frame goes to the
upstream forward queue (R18, R139). -/
def State.annotate (s : State) (n : LaneId) (f : Frame) : State :=
  (s.onLane n fun l => { l with resumeMark := false }).forwardUp ((s.lane n).annotate f)

/-- A routed measurement of lane `n` handled by its engine (R1, R5, R18). In transparent mode nothing is handed to a
lane engine (R147). -/
def State.handleMeasurement (s : State) (n : LaneId) (f : Frame) : State :=
  if s.transparent then s
  else
    match readMeas f.payload with
    | some m => (s.takeSample n m).annotate n f
    | none => s.malformed n f

/-- SAMPLE (R5): the frame, where it is next in the order the switch classified them, leaves the list of those handed
to the lane engines, and its lane handles it and annotates it (R158). The route table is not read: a frame that waits
was routed when it was classified (R153), and a SAMPLE given alone is taken as just handed over, whether or not its
frame's source is routed as the HEAD of lane `n` (DESIGN CHOICE, log 28). -/
def execSample (n : LaneId) (f : Frame) (s : State) : Host.Outcome State Fault Refusal :=
  .next (s.whileRunning fun s =>
    if inTurn s.toLanes (n, f) then ({ s with toLanes := s.toLanes.erase (n, f) }).handleMeasurement n f else s)

end Sys2Proof.Machine
end

