-- ==== Sys2Proof/Machine/Line.lean ====
section
/-! DEFINITION. The receive lines: START_DELIMITER, OVERLONG_FRAME, LINE_BREAK, LINK_DOWN, FRAME_END (R134 to R137). -/

namespace Sys2Proof.Machine

/-- The receiving side of a port. -/
def State.port (s : State) : Port → PortCommon
  | .up => s.up.common
  | .dp => s.dp.common

/-- `s` with the receiving side of a port replaced. -/
def State.putPort (s : State) (p : Port) (c : PortCommon) : State :=
  match p with
  | .up => { s with up := { s.up with common := c } }
  | .dp => { s with dp := { s.dp with common := c } }

/-- A fragment counted (R134, R135). -/
def PortCommon.countFragment (c : PortCommon) : PortCommon :=
  { c with counters := { c.counters with fragments := bump c.counters.fragments } }

/-- A form error counted (R134, R136). -/
def PortCommon.countForm (c : PortCommon) : PortCommon :=
  { c with counters := { c.counters with formErrors := bump c.counters.formErrors } }

/-- A check error counted (R136). -/
def PortCommon.countCheck (c : PortCommon) : PortCommon :=
  { c with counters := { c.counters with checkErrors := bump c.counters.checkErrors } }

/-- One data byte at the receiver (R134): ignored in HUNT, appended in IN_FRAME, and an overlong frame where the
buffer holds 54 bytes already. -/
def PortCommon.takeByte (c : PortCommon) (b : Byte) : PortCommon :=
  match c.receiver with
  | .hunt => c
  | .inFrame buffer =>
    if buffer.length < 54 then { c with receiver := .inFrame (buffer ++ [b]) }
    else { c.countForm with receiver := .hunt }

/-- Data bytes at the receiver, in line order. -/
def PortCommon.takeBytes (c : PortCommon) (data : List Byte) : PortCommon := data.foldl PortCommon.takeByte c

/-- A start delimiter (R134, R137): a frame under way becomes a fragment, a new frame begins, a port in DOWN returns to
UP with the unit's note slot made pending. -/
def State.startDelimiter (s : State) (p : Port) : State :=
  let c := s.port p
  let counted := if c.receiver = .hunt then c else c.countFragment
  let s := s.putPort p { counted with receiver := .inFrame [], linkUp := true }
  if c.linkUp then s else s.raiseUnitNote

/-- A line break (R135): inside a frame a fragment; in HUNT nothing. -/
def State.lineBreak (s : State) (p : Port) : State :=
  match (s.port p).receiver with
  | .hunt => s
  | .inFrame _ => s.putPort p { (s.port p).countFragment with receiver := .hunt }

/-- No line activity for more than 10 ms (R137): a port in UP goes to DOWN and the unit's note slot becomes pending. -/
def State.linkDown (s : State) (p : Port) : State :=
  if (s.port p).linkUp then (s.putPort p { s.port p with linkUp := false }).raiseUnitNote else s

/-- An end delimiter (R136): the checks on the buffer; a good frame is handed to the switch, a failed one is discarded
and counted; in HUNT it is ignored. -/
def State.endDelimiter (s : State) (p : Port) : State :=
  match (s.port p).receiver with
  | .hunt => s
  | .inFrame buffer =>
    let c := { s.port p with receiver := .hunt }
    match checkFrame buffer with
    | .good f => { s.putPort p c with toSwitch := s.toSwitch ++ [(p, f)] }
    | .formError => s.putPort p c.countForm
    | .checkError => s.putPort p c.countCheck

/-- START_DELIMITER (R134). -/
def execStartDelimiter (p : Port) (s : State) : Host.Outcome State Fault Refusal :=
  .next (s.whileRunning fun s => s.startDelimiter p)

/-- OVERLONG_FRAME (R134): data bytes arrive; the byte beyond 54 buffered ones makes the frame overlong (log 5). -/
def execOverlongFrame (p : Port) (data : List Byte) (s : State) : Host.Outcome State Fault Refusal :=
  .next (s.whileRunning fun s => s.putPort p ((s.port p).takeBytes data))

/-- LINE_BREAK (R135). -/
def execLineBreak (p : Port) (s : State) : Host.Outcome State Fault Refusal :=
  .next (s.whileRunning fun s => s.lineBreak p)

/-- LINK_DOWN (R137). -/
def execLinkDown (p : Port) (s : State) : Host.Outcome State Fault Refusal :=
  .next (s.whileRunning fun s => s.linkDown p)

/-- FRAME_END (R136): the data bytes of the frame that are not in the buffer yet, then the end delimiter (log 5). -/
def execFrameEnd (p : Port) (data : List Byte) (s : State) : Host.Outcome State Fault Refusal :=
  .next (s.whileRunning fun s => (s.putPort p ((s.port p).takeBytes data)).endDelimiter p)

end Sys2Proof.Machine
end

