-- ==== Sys2Proof/Machine/Switch.lean ====
section
/-! DEFINITION. FRAME_CLASSIFY: the frame switch and gate command screening (chapter 9). -/

namespace Sys2Proof.Machine

/-- A blocked frame: the screened counter and mark of lane `n` and its note slot (R162). -/
def State.blockFrame (s : State) (n : LaneId) : State :=
  (s.onLane n fun l =>
    { l with
      counters := { l.counters with screened := bump l.counters.screened }
      screenedMark := true }).raiseNote n

/-- Screening of a GATE frame by lane `n` (R159 to R161). -/
def State.screen (s : State) (n : LaneId) (f : Frame) : State :=
  let l := s.lane n
  if l.seq.mode = .auto then
    if isClosing l.params.closedBand f.payload then
      (if l.pouring then s.cutOff n .operator else s).forwardDown f
    else s.blockFrame n
  else s.forwardDown f

/-- A good frame received on UP, by the first matching line (R156). -/
def State.classifyUp (s : State) (f : Frame) : State :=
  if f.dest = s.address then
    if f.kind = kindReq then { s with toResponder := s.toResponder ++ [(f.src, f.payload)] } else s
  else if f.kind = kindGate then
    match s.headLane f.dest with
    | some n => s.screen n f
    | none => s.forwardDown f
  else s.forwardDown f

/-- The lane of which a frame on DP is a routed measurement, if it is one (R157 line 1). -/
def State.measuredLane (s : State) (f : Frame) : Option LaneId :=
  if f.kind = kindMeas then s.headLane f.src else none

/-- A good frame received on DP, by the first matching line (R157); a malformed routed measurement is no sample (R1). -/
def State.classifyDp (s : State) (f : Frame) : State :=
  match s.measuredLane f with
  | some n =>
    if f.payload.length = 10 then { s with toLanes := s.toLanes ++ [(n, f)] } else s.malformed n f
  | none =>
    if f.dest = s.address then
      if f.kind = kindReq then { s with wrongPort := bump s.wrongPort } else s
    else s.forwardUp f

/-- The classification of a good frame (R147, R156, R157). -/
def State.classify (s : State) (p : Port) (f : Frame) : State :=
  match p with
  | .up => if s.transparent then s.forwardDown f else s.classifyUp f
  | .dp => if s.transparent then s.forwardUp f else s.classifyDp f

/-- The frames of port `p` that wait for the switch, in the order of their end delimiters (R136). -/
def State.waitingAt (s : State) (p : Port) : List (Port × Frame) := s.toSwitch.filter fun x => x.1 = p

/-- FRAME_CLASSIFY (R156): the frame, where it is the next of its port, leaves the list of those handed to the switch
and is acted on; the frames of the two ports may come in either order (section 9.3). -/
def execFrameClassify (p : Port) (f : Frame) (s : State) : Host.Outcome State Fault Refusal :=
  .next (s.whileRunning fun s =>
    if inTurn (s.waitingAt p) (p, f) then ({ s with toSwitch := s.toSwitch.erase (p, f) }).classify p f else s)

end Sys2Proof.Machine
end

