-- ==== Sys2Proof/Machine/Restart.lean ====
section
/-! DEFINITION. Replies and restart: the reply queue (R177, R180), the acceptance and the completion of RESTART
(R115 to R117, R185 to R187), and the reset commands (R188). -/

namespace Sys2Proof.Machine

/-! ### The reply queue -/

/-- The payload of a reply: kind, echoed tag, status and results (R180). -/
def replyPayload (kind tagHi tagLo : Byte) (status : Status) (results : List Byte) : List Byte :=
  [kind, tagHi, tagLo, statusCode status] ++ results

/-- A reply at the tail of the reply queue (R177, R180). -/
def State.queueReply (s : State) (src kind tagHi tagLo : Byte) (status : Status) (results : List Byte) : State :=
  { s with up := { s.up with replies :=
      s.up.replies ++ [{ dest := src, payload := replyPayload kind tagHi tagLo status results }] } }

/-! ### Restart values (section 11.6) -/

/-- A lane engine at the completion of a restart. -/
def Lane.restarted (l : Lane) (now : BitVec 32) : Lane where
  cond := Conditioner.cleared
  counters := LaneCounters.zero
  zero := { l.zero with holdAcc := 0 }
  cls := Classifier.cleared
  flow := { l.flow with staged := l.flow.active, commitPending := false, flow := 0, overrange := false }
  integ := { l.integ with grams := 0, residue := 0 }
  seq := Sequencer.cleared l.seq.mode now l.params.silenceTime
  trims := l.trims
  recon := none
  resumeMark := false
  screenedMark := false

/-- Every lane engine at the completion of a restart. -/
def PerLane.restarted (v : PerLane Lane) (now : BitVec 32) : PerLane Lane where
  l0 := v.l0.restarted now
  l1 := v.l1.restarted now
  l2 := v.l2.restarted now
  l3 := v.l3.restarted now

/-- The note slots and screened marks cleared (R162, R175). -/
def State.clearNotes (s : State) : State :=
  { s with
    up := { s.up with laneNotes := PerLane.all false, unitNote := false }
    lanes := { l0 := { s.lanes.l0 with screenedMark := false }
               l1 := { s.lanes.l1 with screenedMark := false }
               l2 := { s.lanes.l2 with screenedMark := false }
               l3 := { s.lanes.l3 with screenedMark := false } } }

/-- The unit at the completion of a restart, its reply queue emptied and the reply not yet placed (R149, R186). -/
def State.restarted (s : State) : State :=
  { s with
    lanes := s.lanes.restarted s.clock
    orders := PerLane.all []
    records := []
    reservations := 0
    up := { s.up with
      common := { s.up.common with counters := PortCounters.zero }
      forward := []
      replies := []
      lastServed := .forward
      lastNote := .unit
      laneNotes := PerLane.all false
      unitNote := false }
    dp := { s.dp with
      common := { s.dp.common with counters := PortCounters.zero }
      forward := []
      urgent := []
      slots := PerLane.all none
      lastServed := .forward
      lastLane := .lane3 }
    restart := none
    unanswered := 0
    wrongPort := 0 }

/-- The tag of lane `n`'s active order and the number of its orders, as a RESTART reply carries them (R187). -/
def State.restartLaneBytes (s : State) (n : LaneId) : List Byte :=
  be16 ((s.activeOrder n).elim 0 (·.tag)) ++ [BitVec.ofNat 8 (s.queue n).length]

/-- Urgent entries that a completion by the bound discards unsent; none are reported by any other completion
(R187, log 15). -/
def State.discardedUrgent (s : State) (c : Completion) : Nat :=
  match c with
  | .bound => (s.dp.urgent.filter fun e => !e.sending).length
  | _ => 0

/-- The results of a RESTART reply, from the state at the completion (R187). -/
def State.restartResults (s : State) (force : Nat) (c : Completion) : List Byte :=
  [BitVec.ofNat 8 force, c.code, BitVec.ofNat 8 (s.discardedUrgent c)] ++ allLanes.flatMap s.restartLaneBytes

/-- The completion of a restart that has a restart record: the restart values and then its reply (R186, R187). The
controller address stays that of the request answered last, as R178 and the table of section 11.6 keep it; R187 says that
the source of the RESTART is the controller address after it, which differs where another source's request was answered
in between (DESIGN CHOICE, log 25). -/
def State.completeRestart (s : State) (r : RestartRecord) (c : Completion) : State :=
  s.restarted.queueReply r.src 0x14 r.tagHi r.tagLo .ok (s.restartResults r.force c)

/-- The urgent commands a forced RESTART places for a lane found filling (R115), that for the head first, as the example
of section 11.7 shows them (DEDUCED, log 26). -/
def State.closeForRestart (s : State) (n : LaneId) : State :=
  if (s.lane n).running then (s.placeHeadClose n).placeIsolationClose n else s

/-- Whether any lane is in AUTO and in FILLING, TRICKLE, CUTOFF or SETTLING (R115). -/
def State.anyRunning (s : State) : Bool := allLanes.any fun n => (s.lane n).running

/-- The acceptance of a forced RESTART that finds lanes filling (R185). -/
def State.acceptRestart (s : State) (src tagHi tagLo : Byte) (force : Nat) : State :=
  let s := (allLanes.foldl State.closeForRestart s).clearNotes
  { s with
    dp := { s.dp with slots := PerLane.all none }
    restart := some { src, tagHi, tagLo, force, bound := s.startTimer 50 } }

/-! ### Reset commands (R188) -/

/-- POWER_ON: every block takes its power-on state, the straps read as the supply comes up. -/
def execPowerOn (straps : BitVec 7) (s : State) : Host.Outcome State Fault Refusal :=
  .next (State.powerOn straps s.pending)

/-- RESET_PIN_ASSERT: a frame being sent on either port stops; nothing acts while the pin is held. -/
def execResetPinAssert (s : State) : Host.Outcome State Fault Refusal :=
  .next { s with held := true, up := { s.up with sending := none }, dp := { s.dp with sending := none } }

/-- RESET_PIN_RELEASE: the straps are read and every block takes its power-on state. -/
def execResetPinRelease (straps : BitVec 7) (s : State) : Host.Outcome State Fault Refusal :=
  .next (State.powerOn straps s.pending)

end Sys2Proof.Machine
end

