-- ==== Sys2Proof/Machine/Timers.lean ====
section
/-! DEFINITION. The expiries of part-time timers (R83, R91, R92, R98, R105, R106, R186). An expiry of a timer that does
not run is no event and changes nothing (R90, log 8). -/

namespace Sys2Proof.Machine

/-- What every silence expiry does to the lane engine (R91): the mark, the stopped timer, and the state cleared. -/
def Lane.silenced (l : Lane) : Lane :=
  { l with
    cond := l.cond.clearBoth
    zero := { l.zero with holdAcc := 0 }
    cls := { l.cls with flushRun := 0, calmRun := 0, settleAcc := 0 }
    flow := { l.flow with flow := 0 }
    seq := { l.seq with silentMark := true, silenceTimer := none }
    resumeMark := true }

/-- What the sequencer does at a silence expiry by mode and state (R92). -/
def State.silenceReaction (s : State) (n : LaneId) : State :=
  match (s.lane n).seq.mode with
  | .outOfService => s
  | .manual => s
  | .auto =>
    match (s.lane n).seq.state with
    | .idle => s
    | .fault => s
    | .armed => s.setHold n .headSilent
    | .gangWait => s.dropOut n .headSilent
    | .filling => s.faultClosingAll n .headSilent
    | .trickle => s.faultClosingAll n .headSilent
    | .cutoff => s.faultClosingAll n .headSilent
    | .settling => s.enterFault n .headSilent
    | .indexing => s.enterFault n .headSilent

/-- A silence expiry of lane `n` (R91, R92). -/
def State.silenceExpiry (s : State) (n : LaneId) : State :=
  match (s.lane n).seq.silenceTimer with
  | some t => (((s.atExpiry t).onLane n Lane.silenced).raiseNote n).silenceReaction n
  | none => s

/-- An open timer expiry of lane `n` (R98). -/
def State.openExpiry (s : State) (n : LaneId) : State :=
  match (s.lane n).seq.openTimer with
  | some t =>
    let s := (s.atExpiry t).onLane n fun l => l.onSeq fun q => { q with openTimer := none }
    let l := s.lane n
    if l.pouring then
      if l.seq.openRetries < l.params.gateRetries then
        let again := s.startTimer l.params.confirmTime
        let s := s.onLane n fun l => l.onSeq fun q =>
          { q with openRetries := q.openRetries + 1, openTimer := some again }
        match l.seq.wanted with
        | some position => s.placePosition n position
        | none => s
      else (s.placeHeadClose n).enterFault n .gateStuck
    else s
  | none => s

/-- A close timer expiry of lane `n` (R105). -/
def State.closeExpiry (s : State) (n : LaneId) : State :=
  match (s.lane n).seq.closeTimer with
  | some t =>
    let s := (s.atExpiry t).onLane n fun l => l.onSeq fun q => { q with closeTimer := none }
    let l := s.lane n
    if l.seq.mode == .auto && l.seq.state == .cutoff then
      if l.seq.closeRetries < l.params.gateRetries then
        let again := s.startTimer l.params.confirmTime
        (s.placeHeadClose n).onLane n fun l => l.onSeq fun q =>
          { q with closeRetries := q.closeRetries + 1, closeTimer := some again }
      else (s.placeIsolationClose n).enterFault n .runaway
    else s
  | none => s

/-- A fall timer expiry of lane `n` (R106): counting of the quiet run begins with the next sample. -/
def State.fallExpiry (s : State) (n : LaneId) : State :=
  match (s.lane n).seq.fallTimer with
  | some t => (s.atExpiry t).onLane n fun l => l.onSeq fun q => { q with fallTimer := none }
  | none => s

/-- A settle timer expiry of lane `n` (R106): settling ends. -/
def State.settleExpiry (s : State) (n : LaneId) : State :=
  match (s.lane n).seq.settleTimer with
  | some t =>
    let s := (s.atExpiry t).onLane n fun l => l.onSeq fun q => { q with settleTimer := none }
    if (s.lane n).seq.mode == .auto && (s.lane n).seq.state == .settling then s.endSettling n else s
  | none => s

/-- A gang timer expiry of lane `n` (R83): the active order ends GANG_TIMEOUT. -/
def State.gangExpiry (s : State) (n : LaneId) : State :=
  match (s.lane n).seq.gangTimer with
  | some t =>
    let s := (s.atExpiry t).onLane n fun l => l.onSeq fun q => { q with gangTimer := none }
    if (s.lane n).seq.mode == .auto && (s.lane n).seq.state == .gangWait then s.endOrder n .gangTimeout else s
  | none => s

/-- The expiry of the bound of a forced restart (R186). -/
def State.boundExpiry (s : State) : State :=
  match s.restart with
  | some r => (s.atExpiry r.bound).completeRestart r .bound
  | none => s

/-- SILENCE_EXPIRY (R91). -/
def execSilenceExpiry (n : LaneId) (s : State) : Host.Outcome State Fault Refusal :=
  .next (s.whileRunning fun s => s.silenceExpiry n)

/-- OPEN_TIMER_EXPIRY (R98). -/
def execOpenTimerExpiry (n : LaneId) (s : State) : Host.Outcome State Fault Refusal :=
  .next (s.whileRunning fun s => s.openExpiry n)

/-- CLOSE_TIMER_EXPIRY (R105). -/
def execCloseTimerExpiry (n : LaneId) (s : State) : Host.Outcome State Fault Refusal :=
  .next (s.whileRunning fun s => s.closeExpiry n)

/-- FALL_TIMER_EXPIRY (R106). -/
def execFallTimerExpiry (n : LaneId) (s : State) : Host.Outcome State Fault Refusal :=
  .next (s.whileRunning fun s => s.fallExpiry n)

/-- SETTLE_TIMER_EXPIRY (R106). -/
def execSettleTimerExpiry (n : LaneId) (s : State) : Host.Outcome State Fault Refusal :=
  .next (s.whileRunning fun s => s.settleExpiry n)

/-- GANG_TIMER_EXPIRY (R83). -/
def execGangTimerExpiry (n : LaneId) (s : State) : Host.Outcome State Fault Refusal :=
  .next (s.whileRunning fun s => s.gangExpiry n)

/-- RESTART_BOUND_EXPIRY (R186). -/
def execRestartBoundExpiry (s : State) : Host.Outcome State Fault Refusal :=
  .next (s.whileRunning State.boundExpiry)

end Sys2Proof.Machine
end

