-- ==== Sys2Proof/Machine/Transmit.lean ====
section
/-! DEFINITION. The transmitters: DP_SELECTION, UP_SELECTION, TRANSMIT_END (R142 to R145) and the notes built at their
selection (R172 to R174). -/

namespace Sys2Proof.Machine

/-! ### The DP arbiter (R144) -/

/-- The frame of an urgent entry (R140). -/
def State.urgentFrame (s : State) (e : UrgentEntry) : Frame := makeFrame e.dest s.address kindGate closePayload

/-- The frame of a slot command (R140). -/
def State.slotFrame (s : State) (c : SlotCommand) : Frame :=
  makeFrame c.dest s.address kindGate (positionPayload c.position)

/-- The oldest entry not yet sent marked as in transmission. -/
def markFirst : List UrgentEntry → List UrgentEntry
  | [] => []
  | e :: rest => if e.sending then e :: markFirst rest else { e with sending := true } :: rest

/-- The first lane after the one last served whose slot holds a command. -/
def DpPort.nextSlot (d : DpPort) : Option (LaneId × SlotCommand) :=
  (lanesAfter d.lastLane).findSome? fun n => (d.slots.get n).map fun c => (n, c)

/-- The slot class served, none where no slot holds a command. -/
def State.serveSlots (s : State) : Option State :=
  s.dp.nextSlot.map fun p =>
    { s with dp := { s.dp with
        sending := some (s.slotFrame p.2)
        slots := s.dp.slots.set p.1 none
        lastServed := .own
        lastLane := p.1 } }

/-- The downstream forward queue served, none where it is empty. -/
def State.serveForwardDown (s : State) : Option State :=
  match s.dp.forward with
  | f :: rest => some { s with dp := { s.dp with sending := some f, forward := rest, lastServed := .forward } }
  | [] => none

/-- A class selection: the class not served last first, then the other; nothing where neither has anything waiting
(R144, R145). -/
def alternate (last : Served) (own forward : Option State) (idle : State) : State :=
  match last with
  | .forward => (own.orElse fun _ => forward).getD idle
  | .own => (forward.orElse fun _ => own).getD idle

/-- A selection by the idle DP transmitter (R144). -/
def State.selectDp (s : State) : State :=
  match s.dp.sending with
  | some _ => s
  | none =>
    match s.dp.urgent.find? fun e => !e.sending with
    | some e => { s with dp := { s.dp with sending := some (s.urgentFrame e), urgent := markFirst s.dp.urgent } }
    | none => alternate s.dp.lastServed s.serveSlots s.serveForwardDown s

/-! ### Notes (R172, R173) -/

/-- The cause of a lane's note: the fault cause in FAULT, the hold cause in ARMED and INDEXING, otherwise NONE. -/
def Lane.noteCause (l : Lane) : Byte :=
  match l.reportedState with
  | .fault => l.seq.faultCause.code
  | .armed | .indexing => l.seq.holdCause.code
  | _ => 0

/-- Tag and compartment index of lane `n`'s active order, 0 and 0 with none (R118, R172). -/
def State.activeTagIndex (s : State) (n : LaneId) : Nat × Nat :=
  match s.activeOrder n with
  | some o => (o.tag, o.compartment)
  | none => (0, 0)

/-- The two counts of the record store (R163). -/
def State.storeCounts (s : State) : List Byte :=
  [BitVec.ofNat 8 s.records.length, BitVec.ofNat 8 s.reservations]

/-- The payload of lane `n`'s note (R172, R192). -/
def State.laneNotePayload (s : State) (n : LaneId) : List Byte :=
  let l := s.lane n
  [BitVec.ofNat 8 (laneNum n), l.seq.mode.code, l.reportedState.code, l.noteCause] ++ be16 (s.activeTagIndex n).1
    ++ [BitVec.ofNat 8 (s.activeTagIndex n).2, l.cls.active.code, noteMarks l] ++ s.storeCounts ++ [0]

/-- The payload of the unit's note (R173, R192). -/
def State.unitNotePayload (s : State) : List Byte :=
  [0xFF, 0, 0, 0, 0, 0, 0, 0, 0] ++ s.storeCounts ++ [linkByte s]

/-- Whether a note slot is pending. -/
def UpPort.notePending (u : UpPort) : NoteSlot → Bool
  | .lane n => u.laneNotes.get n
  | .unit => u.unitNote

/-- A note slot selected: its mark cleared, the NOTE built and sent to the controller address; a lane's note clears
the screened mark (R145, R172 to R174). -/
def State.sendNote (s : State) (slot : NoteSlot) : State :=
  match slot with
  | .lane n =>
    let f := makeFrame s.controller s.address kindNote (s.laneNotePayload n)
    let s := s.onLane n fun l => { l with screenedMark := false }
    { s with up := { s.up with
        sending := some f
        laneNotes := s.up.laneNotes.set n false
        lastServed := .own
        lastNote := slot } }
  | .unit =>
    let f := makeFrame s.controller s.address kindNote s.unitNotePayload
    { s with up := { s.up with sending := some f, unitNote := false, lastServed := .own, lastNote := slot } }

/-! ### The UP arbiter (R145) -/

/-- The own class served: the oldest reply, else the next pending note slot while the controller address is not 0. -/
def State.serveOwn (s : State) : Option State :=
  match s.up.replies with
  | r :: rest =>
    some { s with up := { s.up with
      sending := some (makeFrame r.dest s.address kindReply r.payload)
      replies := rest
      lastServed := .own } }
  | [] =>
    if s.controller = 0 then none
    else ((notesAfter s.up.lastNote).find? s.up.notePending).map s.sendNote

/-- The upstream forward queue served, none where it is empty. -/
def State.serveForwardUp (s : State) : Option State :=
  match s.up.forward with
  | f :: rest => some { s with up := { s.up with sending := some f, forward := rest, lastServed := .forward } }
  | [] => none

/-- A selection by the idle UP transmitter (R145). -/
def State.selectUp (s : State) : State :=
  match s.up.sending with
  | some _ => s
  | none => alternate s.up.lastServed s.serveOwn s.serveForwardUp s

/-! ### The end of a transmission (R142, R186) -/

/-- The end delimiter of the frame in transmission on DP: an urgent entry leaves its queue, and the queue becoming
empty by it completes a forced restart. -/
def State.transmitEndDp (s : State) : State :=
  match s.dp.sending with
  | none => s
  | some _ =>
    let left := s.dp.urgent.filter fun e => !e.sending
    let t := { s with dp := { s.dp with sending := none, urgent := left } }
    match s.restart with
    | some r => if left = [] ∧ s.dp.urgent ≠ [] then t.completeRestart r .drained else t
    | none => t

/-- The end delimiter of the frame in transmission on UP. -/
def State.transmitEndUp (s : State) : State := { s with up := { s.up with sending := none } }

/-- The end of a transmission on a port. -/
def State.transmitEnd (s : State) : Port → State
  | .up => s.transmitEndUp
  | .dp => s.transmitEndDp

/-- DP_SELECTION (R144). -/
def execDpSelection (s : State) : Host.Outcome State Fault Refusal :=
  .next (s.whileRunning State.selectDp)

/-- UP_SELECTION (R145). -/
def execUpSelection (s : State) : Host.Outcome State Fault Refusal :=
  .next (s.whileRunning State.selectUp)

/-- TRANSMIT_END (R142). -/
def execTransmitEnd (p : Port) (s : State) : Host.Outcome State Fault Refusal :=
  .next (s.whileRunning fun s => s.transmitEnd p)

end Sys2Proof.Machine
end

