-- ==== Sys2Proof/Machine/Responder.lean ====
section
/-! DEFINITION. The management responder: taking a request, its reply, and the checks that requests share (R176 to
R180, R191). -/

namespace Sys2Proof.Machine

/-- A request as the responder decides it: where it came from, its tag, and the bytes after the tag. -/
structure Asked where
  src : Byte
  tagHi : Byte
  tagLo : Byte
  args : List Byte
deriving DecidableEq, Repr

/-- What a request's owner decides: the state after it and the reply's status and results; no reply is placed at the
acceptance of a forced RESTART (R185). -/
structure Decision where
  state : State
  reply : Option (Status × List Byte)
deriving DecidableEq, Repr

/-- A refusal: its status alone, the state unchanged (R180). -/
def refuse (s : State) (st : Status) : Decision := { state := s, reply := some (st, []) }

/-- A refusal that carries results: BAD_TABLE and DUPLICATE (R180). -/
def refuseWith (s : State) (st : Status) (results : List Byte) : Decision := { state := s, reply := some (st, results) }

/-- A request carried out, with its results. -/
def accept (s : State) (results : List Byte) : Decision := { state := s, reply := some (.ok, results) }

/-- The reply of a decision placed in the reply queue (R177, R180). -/
def Decision.deliver (d : Decision) (kind : Byte) (a : Asked) : State :=
  match d.reply with
  | some (st, results) => d.state.queueReply a.src kind a.tagHi a.tagLo st results
  | none => d.state

/-- A request discarded for want of room in the reply queue (R177, R184). -/
def State.discardRequest (s : State) : State := { s with unanswered := bump s.unanswered }

/-- A request that is answered (R178, R179): the controller address is set, a payload too short for the tag is answered
BAD_ARG with 0 for the missing part, and the owner decides the rest. -/
def State.answer (s : State) (kind src : Byte) (body : List Byte) (decide : Asked → State → Decision) : State :=
  let s := { s with controller := src }
  match body with
  | tagHi :: tagLo :: args =>
    let a : Asked := { src, tagHi, tagLo, args }
    (decide a s).deliver kind a
  | [tagHi] => s.queueReply src kind tagHi 0 .badArg []
  | [] => s.queueReply src kind 0 0 .badArg []

/-- A request taken at the responder (R147, R176, R177): in transparent mode none is; otherwise, next in the order of
hand-over, it leaves the list of those handed over, and it is discarded when the reply queue holds 4. -/
def State.respond (s : State) (kind src : Byte) (body : List Byte) (decide : Asked → State → Decision) : State :=
  if s.transparent || !inTurn s.toResponder (src, kind :: body) then s
  else
    let s := { s with toResponder := s.toResponder.erase (src, kind :: body) }
    if 4 ≤ s.up.replies.length then s.discardRequest else s.answer kind src body decide

/-- The arguments read by their layout; a payload too short for them is answered BAD_ARG (R179 step 3). -/
def withArgs {α : Type} (s : State) (parsed : Option α) (decide : α → Decision) : Decision :=
  match parsed with
  | some x => decide x
  | none => refuse s .badArg

/-- A lane number argument; a number above 3 is answered BAD_ARG. -/
def withLane (s : State) (num : Nat) (decide : LaneId → Decision) : Decision :=
  match laneOf num with
  | some n => decide n
  | none => refuse s .badArg

/-- A request that a running unit takes. -/
def State.request (s : State) (kind src : Byte) (body : List Byte) (decide : Asked → State → Decision) : State :=
  s.whileRunning fun s => s.respond kind src body decide

end Sys2Proof.Machine
end

