-- ==== Sys2Proof/Machine/Configuration.lean ====
section
/-! DEFINITION. Requests on the route table and the lane banks: ROUTE_SET, ROUTE_CLEAR, ROUTE_READ, PARAM_SET,
CURVE_SET, COMMIT, BANK_READ (R48 to R56, R152 to R155). -/

namespace Sys2Proof.Machine

/-! ### Route table -/

/-- The entry at an index, none where it is unused. -/
def State.routeAt (s : State) (i : Nat) : Option RouteEntry := (s.routes[i]?).join

/-- `s` with the entry at an index replaced. -/
def State.putRoute (s : State) (i : Nat) (e : Option RouteEntry) : State :=
  { s with routes := s.routes.setIfInBounds i e }

/-- Whether an entry is HEAD for a lane that is in service, and so may not be changed (R152 step 2, R154). -/
def State.headInService (s : State) : Option RouteEntry → Bool
  | some (.head _ n) => (s.lane n).seq.mode != .outOfService
  | _ => false

/-- Whether two lane sets share a member. -/
def setsMeet (a b : PerLane Bool) : Bool :=
  (a.l0 && b.l0) || (a.l1 && b.l1) || (a.l2 && b.l2) || (a.l3 && b.l3)

/-- The index of the first used entry at another index that satisfies `p`. -/
def State.routeConflict (s : State) (i : Nat) (p : RouteEntry → Bool) : Option Nat :=
  (s.usedRoutes.find? fun e => e.1 != i && p e.2).map (·.1)

/-- Whether an entry is HEAD for the lane of another HEAD entry (R152 step 4). -/
def sameHead (new old : RouteEntry) : Bool :=
  match new, old with
  | .head _ n, .head _ m => n == m
  | _, _ => false

/-- Whether an entry is ISOLATION with a set that meets that of another (R152 step 5). -/
def sharedIsolation (new old : RouteEntry) : Bool :=
  match new, old with
  | .isolation _ a, .isolation _ b => setsMeet a b
  | _, _ => false

/-- Steps 2 to 5 of R152 on arguments in range. -/
def State.decideRoute (s : State) (i : Nat) (e : RouteEntry) : Decision :=
  if s.headInService (s.routeAt i) || s.headInService (some e) then refuse s .state
  else
    match s.routeConflict i fun o => routeAddress o == routeAddress e with
    | some j => refuseWith s .duplicate [3, BitVec.ofNat 8 j]
    | none =>
      match s.routeConflict i (sameHead e) with
      | some j => refuseWith s .duplicate [4, BitVec.ofNat 8 j]
      | none =>
        match s.routeConflict i (sharedIsolation e) with
        | some j => refuseWith s .duplicate [5, BitVec.ofNat 8 j]
        | none => accept (s.putRoute i (some e)) (BitVec.ofNat 8 i :: routeBytes (some e))

/-- ROUTE_SET decided (R152, R153). -/
def decideRouteSet (a : Asked) (s : State) : Decision :=
  withArgs s (decodeRouteSet a.args) fun r =>
    if 15 < r.index ∨ r.address.toNat = 0 ∨ 126 < r.address.toNat ∨ r.address = s.address then refuse s .badArg
    else
      match routeEntryOf r.address r.role with
      | some e => s.decideRoute r.index e
      | none => refuse s .badArg

/-- ROUTE_CLEAR decided (R154). -/
def decideRouteClear (a : Asked) (s : State) : Decision :=
  withArgs s (decodeByteArg a.args) fun i =>
    if 16 ≤ i then refuse s .badArg
    else if s.headInService (s.routeAt i) then refuse s .state
    else accept (s.putRoute i none) [BitVec.ofNat 8 i]

/-- ROUTE_READ decided (R155). -/
def decideRouteRead (_a : Asked) (s : State) : Decision := accept s (s.routes.toList.flatMap routeBytes)

/-! ### Lane banks -/

/-- The staged bank of lane `n` changed by `f`. -/
def State.onStaged (s : State) (n : LaneId) (f : Bank → Bank) : State :=
  s.onLane n fun l => { l with flow := { l.flow with staged := f l.flow.staged } }

/-- A parameter written to the staged bank of lane `n` (R48 to R50). -/
def State.setParam (s : State) (n : LaneId) (id value : Nat) : Decision :=
  let p := (s.lane n).flow.staged.params
  let stored := p.stored id value
  let second := p.partner id stored
  let t := s.onStaged n fun b => { b with params := p.write id value }
  let st := if stored = value ∧ second = none then Status.ok else Status.adjusted
  let extra := match second with
    | some (id2, v2) => BitVec.ofNat 8 id2 :: be32 v2
    | none => 0xFF :: be32 0
  { state := t, reply := some (st, BitVec.ofNat 8 id :: (be32 stored ++ extra)) }

/-- PARAM_SET decided (R48 to R50). -/
def decideParamSet (a : Asked) (s : State) : Decision :=
  withArgs s (decodeParamSet a.args) fun r =>
    withLane s r.lane fun n =>
      if 27 < r.id then refuse s .badArg
      else if (s.lane n).flow.commitPending then refuse s .busy
      else s.setParam n r.id r.value

/-- One slot of a bank's curve written and that curve's count set (R51). -/
def Bank.writeSlot (b : Bank) (g : Regime) (count index : Nat) (p : Breakpoint) : Bank :=
  { b with curves := b.curves.set g ((b.curves.get g).write count index p) }

/-- CURVE_SET decided (R51). -/
def decideCurveSet (a : Asked) (s : State) : Decision :=
  withArgs s (decodeCurveSet a.args) fun r =>
    withLane s r.lane fun n =>
      match regimeOf r.regime with
      | none => refuse s .badArg
      | some g =>
        if r.count = 0 ∨ 16 < r.count ∨ 16 ≤ r.index ∨ 32767 < r.force ∨ 200000 < r.flow then refuse s .badArg
        else if (s.lane n).flow.commitPending then refuse s .busy
        else
          accept
            (s.onStaged n fun b => b.writeSlot g r.count r.index { force := r.force, flow := r.flow })
            [g.code, BitVec.ofNat 8 r.index, BitVec.ofNat 8 r.count]

/-- A validated commit of lane `n` made pending, and applied at once where the lane allows (R53). -/
def State.commitLane (s : State) (n : LaneId) : Decision :=
  let t := s.onLane n fun l => { l with flow := { l.flow with commitPending := true } }
  if (s.lane n).appliesAtOnce then accept (t.applyBank n) [1] else accept t [2]

/-- COMMIT decided (R52, R53). -/
def decideCommit (a : Asked) (s : State) : Decision :=
  withArgs s (decodeByteArg a.args) fun num =>
    withLane s num fun n =>
      if (s.lane n).flow.commitPending then refuse s .busy
      else
        match (s.lane n).flow.staged.firstFailure with
        | some (g, i) => refuseWith s .badTable [BitVec.ofNat 8 g, BitVec.ofNat 8 i]
        | none => s.commitLane n

/-- The bytes of a breakpoint in a reply. -/
def breakpointBytes (b : Breakpoint) : List Byte := be16 b.force ++ be32 b.flow

/-- The curve part of BANK_READ: the count and at most six breakpoints from the first index onward (R56). -/
def curvePart (c : Curve) (first : Nat) : List Byte :=
  BitVec.ofNat 8 c.count :: ((c.points.drop first).take 6).flatMap breakpointBytes

/-- The parameter part of BANK_READ: a number and at most eight values from the first index onward (R56). Section 12.3
does not say what the number counts and R56 names none: here it is the number of values that follow (DESIGN CHOICE,
log 27). -/
def paramPart (p : Params) (first : Nat) : List Byte :=
  BitVec.ofNat 8 (min 8 (28 - first)) ::
    ((List.range 28).drop first |>.take 8).flatMap fun id => be32 (p.get id)

/-- The part of a bank that BANK_READ asks for, none where the selector or the first index is out of range (R56). -/
def bankPart (b : Bank) (part first : Nat) : Option (List Byte) :=
  match regimeOf part with
  | some g => if 16 ≤ first then none else some (curvePart (b.curves.get g) first)
  | none => if part = 3 ∧ first < 28 then some (paramPart b.params first) else none

/-- The bank of a selector: ACTIVE 0, STAGED 1 (R191). -/
def bankOf (l : Lane) : Nat → Option Bank
  | 0 => some l.flow.active
  | 1 => some l.flow.staged
  | _ => none

/-- BANK_READ decided (R56). Section 12.3 gives the pending flag of its reply a byte and no code: 1 for set and 0 for clear
(DESIGN CHOICE, log 24). -/
def decideBankRead (a : Asked) (s : State) : Decision :=
  withArgs s (decodeBankRead a.args) fun r =>
    withLane s r.lane fun n =>
      match (bankOf (s.lane n) r.bank).bind fun b => bankPart b r.part r.first with
      | some part =>
        accept s ([flagBit 0 (s.lane n).flow.commitPending, BitVec.ofNat 8 r.bank, BitVec.ofNat 8 r.part,
          BitVec.ofNat 8 r.first] ++ part)
      | none => refuse s .badArg

/-! ### The commands -/

/-- ROUTE_SET (R152). -/
def execRouteSet (src : Byte) (body : List Byte) (s : State) : Host.Outcome State Fault Refusal :=
  .next (s.request 0x02 src body decideRouteSet)

/-- ROUTE_CLEAR (R154). -/
def execRouteClear (src : Byte) (body : List Byte) (s : State) : Host.Outcome State Fault Refusal :=
  .next (s.request 0x03 src body decideRouteClear)

/-- ROUTE_READ (R155). -/
def execRouteRead (src : Byte) (body : List Byte) (s : State) : Host.Outcome State Fault Refusal :=
  .next (s.request 0x04 src body decideRouteRead)

/-- PARAM_SET (R48). -/
def execParamSet (src : Byte) (body : List Byte) (s : State) : Host.Outcome State Fault Refusal :=
  .next (s.request 0x05 src body decideParamSet)

/-- CURVE_SET (R51). -/
def execCurveSet (src : Byte) (body : List Byte) (s : State) : Host.Outcome State Fault Refusal :=
  .next (s.request 0x06 src body decideCurveSet)

/-- COMMIT (R52). -/
def execCommit (src : Byte) (body : List Byte) (s : State) : Host.Outcome State Fault Refusal :=
  .next (s.request 0x07 src body decideCommit)

/-- BANK_READ (R56). -/
def execBankRead (src : Byte) (body : List Byte) (s : State) : Host.Outcome State Fault Refusal :=
  .next (s.request 0x08 src body decideBankRead)

end Sys2Proof.Machine
end

