-- ==== Sys2Proof/Machine/LaneRequests.lean ====
section
/-! DEFINITION. Requests on a lane: LANE_MODE, ZERO_CAL, LANE_READ, FAULT_CLEAR, TOTAL_CLEAR (R26 to R28, R66, R88,
R89, R111, R182). -/

namespace Sys2Proof.Machine

/-! ### LANE_MODE (R77, R88, R89) -/

/-- Entry to service in the lane engine (R14, R25, R42, R62, R87). -/
def Lane.enterService (l : Lane) : Lane :=
  { l with
    cond := l.cond.clearBoth
    zero := { l.zero with holdAcc := 0 }
    cls := Classifier.cleared
    flow := { l.flow with flow := 0 } }

/-- The mode of lane `n` set, with its note (R89, R171). -/
def State.setMode (s : State) (n : LaneId) (m : Mode) : State :=
  (s.onLane n fun l => l.onSeq fun q => { q with mode := m }).raiseNote n

/-- The OVERRANGE flag of lane `n` cleared (R61). -/
def State.clearOverrange (s : State) (n : LaneId) : State :=
  s.onLane n fun l => { l with flow := { l.flow with overrange := false } }

/-- Q of lane `n` set to 0 (R62). -/
def State.zeroFlow (s : State) (n : LaneId) : State :=
  s.onLane n fun l => { l with flow := { l.flow with flow := 0 } }

/-- What entering a mode does beyond the mode itself: IDLE in AUTO, the OVERRANGE flag in MANUAL, Q out of service. A
lane going from MANUAL to AUTO keeps its OVERRANGE flag (R89). -/
def State.settleMode (s : State) (n : LaneId) : Mode → State
  | .auto => s.enterIdle n
  | .manual => s.clearOverrange n
  | .outOfService => s.zeroFlow n

/-- A lane leaving AUTO: its queue discarded without records, a reservation of GANG_WAIT returned, the gang timer
stopped, the state and both causes as outside AUTO, and a pending bank applied (R54, R77, R87, R89). -/
def State.leaveAuto (s : State) (n : LaneId) (m : Mode) : State :=
  let s := (s.returnReservation n).putQueue n []
  let s := s.onLane n fun l => l.onSeq fun q =>
    { q with state := .idle, holdCause := .none, faultCause := .none, gangTimer := none }
  ((s.setMode n m).applyPending n).settleMode n m

/-- Whether a lane may be taken out of AUTO: IDLE, ARMED, GANG_WAIT or FAULT (R88). -/
def Lane.mayLeaveAuto (l : Lane) : Bool :=
  match l.seq.state with
  | .idle | .armed | .gangWait | .fault => true
  | _ => false

/-- Whether lane `n` may enter service (R88). -/
def State.mayEnterService (s : State) (n : LaneId) : Bool :=
  (s.lane n).flow.active.curvesValid && (s.headOf n).isSome

/-- A change of mode of lane `n` to a mode other than its own, none where it is refused (R88, R89). -/
def State.changeMode (s : State) (n : LaneId) (m : Mode) : Option State :=
  match (s.lane n).seq.mode with
  | .outOfService =>
    if s.mayEnterService n then some (((s.onLane n Lane.enterService).setMode n m).settleMode n m) else none
  | .manual => some ((s.setMode n m).settleMode n m)
  | .auto => if (s.lane n).mayLeaveAuto then some (s.leaveAuto n m) else none

/-- Mode and state of lane `n`, as LANE_MODE's reply carries them (R88). -/
def State.modeBytes (s : State) (n : LaneId) : List Byte :=
  [(s.lane n).seq.mode.code, (s.lane n).reportedState.code]

/-- LANE_MODE decided (R88). -/
def decideLaneMode (a : Asked) (s : State) : Decision :=
  withArgs s (decodeLaneMode a.args) fun r =>
    withLane s r.lane fun n =>
      match modeOf r.mode with
      | none => refuse s .badArg
      | some m =>
        if m = (s.lane n).seq.mode then accept s (s.modeBytes n)
        else
          match s.changeMode n m with
          | some t => accept t (t.modeBytes n)
          | none => refuse s .state

/-! ### ZERO_CAL, FAULT_CLEAR, TOTAL_CLEAR, LANE_READ -/

/-- ZERO_CAL decided (R26 to R28). -/
def decideZeroCal (a : Asked) (s : State) : Decision :=
  withArgs s (decodeByteArg a.args) fun num =>
    withLane s num fun n =>
      if (s.lane n).mayCalibrate then
        accept (s.onLane n Lane.calibrate)
          (be16s (s.lane n).calibration ++ be16s (average (s.lane n).cond.history))
      else refuse s .state

/-- When FAULT_CLEAR is accepted (R111). -/
def Lane.mayClearFault (l : Lane) : Bool :=
  l.seq.mode == .auto && l.seq.state == .fault && !l.seq.silentMark
    && (match l.cond.lastGate with
        | some g => g ≤ l.params.closedBand
        | none => false)

/-- FAULT_CLEAR decided (R111). -/
def decideFaultClear (a : Asked) (s : State) : Decision :=
  withArgs s (decodeByteArg a.args) fun num =>
    withLane s num fun n =>
      if (s.lane n).mayClearFault then
        let t := s.enterIdle n
        accept t [(t.lane n).reportedState.code]
      else refuse s .state

/-- The manual total of a lane cleared, with its OVERRANGE flag in MANUAL (R61, R66). -/
def Lane.clearTotal (l : Lane) : Lane :=
  { l with
    integ := { l.integ with manualTotal := 0, manualResidue := 0, manualFull := false }
    flow := { l.flow with overrange := l.flow.overrange && l.seq.mode != .manual } }

/-- TOTAL_CLEAR decided (R66). -/
def decideTotalClear (a : Asked) (s : State) : Decision :=
  withArgs s (decodeByteArg a.args) fun num =>
    withLane s num fun n => accept (s.onLane n Lane.clearTotal) (be32 (s.lane n).integ.manualTotal)

/-- The causes of a lane as they are reported, NONE outside AUTO (R87, R182). -/
def Lane.causeBytes (l : Lane) : List Byte :=
  match l.seq.mode with
  | .auto => [l.seq.holdCause.code, l.seq.faultCause.code]
  | _ => [0, 0]

/-- The 42 result bytes of LANE_READ (R182, section 12.3). -/
def State.laneReadBytes (s : State) (n : LaneId) : List Byte :=
  let l := s.lane n
  [l.seq.mode.code, l.reportedState.code] ++ l.causeBytes ++ be16 (s.activeTagIndex n).1
    ++ [BitVec.ofNat 8 (s.activeTagIndex n).2] ++ be32 l.integ.grams ++ be32 l.flow.flow
    ++ [l.cls.active.code, l.cls.candidate.code] ++ be16s l.zero.tare ++ be16s l.zero.tareRef ++ [laneMarks l]
    ++ be32s l.trims.settled ++ be32s l.trims.aerated ++ be32s l.trims.flushing
    ++ be16 l.flow.meterFactor ++ be32 l.integ.manualTotal ++ s.storeCounts

/-- LANE_READ decided (R182). -/
def decideLaneRead (a : Asked) (s : State) : Decision :=
  withArgs s (decodeByteArg a.args) fun num => withLane s num fun n => accept s (s.laneReadBytes n)

/-! ### The commands -/

/-- LANE_MODE (R88). -/
def execLaneMode (src : Byte) (body : List Byte) (s : State) : Host.Outcome State Fault Refusal :=
  .next (s.request 0x09 src body decideLaneMode)

/-- ZERO_CAL (R26). -/
def execZeroCal (src : Byte) (body : List Byte) (s : State) : Host.Outcome State Fault Refusal :=
  .next (s.request 0x0A src body decideZeroCal)

/-- LANE_READ (R182). -/
def execLaneRead (src : Byte) (body : List Byte) (s : State) : Host.Outcome State Fault Refusal :=
  .next (s.request 0x0E src body decideLaneRead)

/-- FAULT_CLEAR (R111). -/
def execFaultClear (src : Byte) (body : List Byte) (s : State) : Host.Outcome State Fault Refusal :=
  .next (s.request 0x11 src body decideFaultClear)

/-- TOTAL_CLEAR (R66). -/
def execTotalClear (src : Byte) (body : List Byte) (s : State) : Host.Outcome State Fault Refusal :=
  .next (s.request 0x12 src body decideTotalClear)

end Sys2Proof.Machine
end

