-- ==== Sys2Proof/Machine/OrderRequests.lean ====
section
/-! DEFINITION. Requests on orders: ORDER_POST, ORDER_CANCEL, ORDER_LIST (R71, R72, R75, R76, R112). -/

namespace Sys2Proof.Machine

/-! ### ORDER_POST -/

/-- Step 1 of R71 but for the lane number, and the no-trickle byte of section 12.3. -/
def orderArgsOk (r : OrderPostArgs) : Bool :=
  r.tag != 0 && 1 ≤ r.targets.length && r.targets.length ≤ 4
    && r.targets.all (fun t => 1 ≤ t && t ≤ 1000000)
    && r.gangTag ≤ 15 && (r.gangTag == 0 || (2 ≤ r.gangSize && r.gangSize ≤ 4))
    && r.noTrickle ≤ 1
    && r.vehicle.length ≤ 8 && r.vehicle.all (fun c => 0x20 ≤ c.toNat && c.toNat ≤ 0x7E)

/-- The order that ORDER_POST's arguments give, on acceptance (R69). -/
def newOrder (r : OrderPostArgs) : Order where
  tag := r.tag
  vehicle := if r.vehicle = [] then none else some r.vehicle
  targets := r.targets
  gangTag := r.gangTag
  gangSize := if r.gangTag = 0 then none else some r.gangSize
  noTrickle := r.noTrickle = 1
  active := false
  compartment := 0
  results := []
  cancelNoted := false
  reserved := false

/-- Whether an order present carries the same gang tag with another size (R71 step 4). -/
def gangDiffers (r : OrderPostArgs) (o : Order) : Bool :=
  r.gangTag != 0 && o.gangTag == r.gangTag && o.gangSize != some r.gangSize

/-- ORDER_POST decided (R71, R72). -/
def decideOrderPost (a : Asked) (s : State) : Decision :=
  withArgs s (decodeOrderPost a.args) fun r =>
    withLane s r.lane fun n =>
      if !orderArgsOk r then refuse s .badArg
      else if (s.lane n).seq.mode ≠ .auto then refuse s .state
      else if s.presentOrders.any (fun o => o.tag == r.tag) then refuseWith s .duplicate [1, 0xFF]
      else if s.presentOrders.any (gangDiffers r) then refuseWith s .duplicate [2, 0xFF]
      else if 4 ≤ (s.queue n).length then refuse s .full
      else
        accept (s.putQueue n (s.queue n ++ [newOrder r]))
          [BitVec.ofNat 8 (laneNum n), BitVec.ofNat 8 ((s.queue n).length + 1)]

/-! ### ORDER_CANCEL -/

/-- The dispositions of ORDER_CANCEL (R191). -/
inductive Disposition where
  | removed
  | ended
  | cut
  | noted
deriving DecidableEq, Repr

/-- Codes of dispositions. -/
def Disposition.code : Disposition → Byte
  | .removed => 1
  | .ended => 2
  | .cut => 3
  | .noted => 4

/-- The lane whose queue holds an order of the tag, the lowest-numbered one. -/
def State.laneOfTag (s : State) (tag : Nat) : Option LaneId :=
  allLanes.find? fun n => (s.queue n).any fun o => o.tag == tag

/-- The active order of lane `n` removed from its queue without a record, the lane entering IDLE (R112, ARMED). -/
def State.removeActive (s : State) (n : LaneId) : State := (s.putQueue n ((s.queue n).drop 1)).enterIdle n

/-- The cancel-noted mark of lane `n`'s active order set (R112). -/
def State.noteCancel (s : State) (n : LaneId) : State := s.onHead n fun o => { o with cancelNoted := true }

/-- GANG_WAIT left by a cancel: the gang timer stops, the order ends CANCELLED (R84, R112). -/
def State.cancelGangWait (s : State) (n : LaneId) : State :=
  (s.onLane n fun l => l.onSeq fun q => { q with gangTimer := none }).endOrder n .cancelled

/-- A cancel of lane `n`'s active order by the lane's state (R112); none in a state that holds no active order. -/
def State.cancelActive (s : State) (n : LaneId) : Option (State × Disposition) :=
  match (s.lane n).seq.state with
  | .armed => some (s.removeActive n, .removed)
  | .gangWait => some (s.cancelGangWait n, .ended)
  | .filling => some (s.cutOff n .cancel, .cut)
  | .trickle => some (s.cutOff n .cancel, .cut)
  | .cutoff => some (s.noteCancel n, .noted)
  | .settling => some (s.noteCancel n, .noted)
  | .indexing => some (s.endOrder n .cancelled, .ended)
  | .idle => none
  | .fault => none

/-- The reply to an accepted cancel (R75, R112). -/
def cancelled (s : State) (n : LaneId) (d : Disposition) : Decision :=
  accept s [BitVec.ofNat 8 (laneNum n), d.code]

/-- A cancel of an order that stands in lane `n`'s queue (R75). -/
def State.cancelIn (s : State) (n : LaneId) (tag : Nat) : Decision :=
  match s.activeOrder n with
  | some o =>
    if o.tag = tag then
      match s.cancelActive n with
      | some (t, d) => cancelled t n d
      | none => refuse s .notFound
    else cancelled (s.putQueue n ((s.queue n).eraseP fun o => o.tag == tag)) n .removed
  | none => cancelled (s.putQueue n ((s.queue n).eraseP fun o => o.tag == tag)) n .removed

/-- ORDER_CANCEL decided (R75). -/
def decideOrderCancel (a : Asked) (s : State) : Decision :=
  withArgs s (decodeTagArg a.args) fun tag =>
    if tag = 0 then refuse s .badArg
    else
      match s.laneOfTag tag with
      | some n => s.cancelIn n tag
      | none => refuse s .notFound

/-! ### ORDER_LIST -/

/-- The waiting count of an ORDER_LIST reply (R76). -/
def State.waitingCount (s : State) (n : LaneId) : Nat :=
  if (s.lane n).seq.mode == .auto && (s.lane n).seq.state == .gangWait then
    match s.activeOrder n with
    | some o => (s.waitingSet o.gangTag).length
    | none => 0
  else 0

/-- The entry of an order in an ORDER_LIST reply (R76, R191). -/
def orderBytes (o : Order) : List Byte :=
  be16 o.tag ++ [BitVec.ofNat 8 o.targets.length, BitVec.ofNat 8 o.compartment, orderFlags o,
    BitVec.ofNat 8 o.gangTag, BitVec.ofNat 8 (o.gangSize.getD 0)]

/-- ORDER_LIST decided (R76). -/
def decideOrderList (a : Asked) (s : State) : Decision :=
  withArgs s (decodeByteArg a.args) fun num =>
    withLane s num fun n =>
      accept s ([BitVec.ofNat 8 (s.queue n).length, BitVec.ofNat 8 (s.waitingCount n)]
        ++ (s.queue n).flatMap orderBytes)

/-! ### The commands -/

/-- ORDER_POST (R71). -/
def execOrderPost (src : Byte) (body : List Byte) (s : State) : Host.Outcome State Fault Refusal :=
  .next (s.request 0x0B src body decideOrderPost)

/-- ORDER_CANCEL (R75). -/
def execOrderCancel (src : Byte) (body : List Byte) (s : State) : Host.Outcome State Fault Refusal :=
  .next (s.request 0x0C src body decideOrderCancel)

/-- ORDER_LIST (R76). -/
def execOrderList (src : Byte) (body : List Byte) (s : State) : Host.Outcome State Fault Refusal :=
  .next (s.request 0x0D src body decideOrderList)

end Sys2Proof.Machine
end

