-- ==== Sys2Proof/Machine/UnitRequests.lean ====
section
/-! DEFINITION. Requests on the unit: IDENT, RECORD_TAKE, SCALE_RESULT, COUNTERS_READ, RESTART, and the request of an
unknown kind (R128 to R132, R168, R179, R181, R183, R185). -/

namespace Sys2Proof.Machine

/-! ### IDENT -/

/-- IDENT decided (R181): vendor 0x5354, part 418, revision 3, 4 lanes, 16 route entries, depth 4, 24 record slots,
the straps, a reserved byte. -/
def decideIdent (_a : Asked) (s : State) : Decision :=
  accept s (be16 0x5354 ++ be16 418 ++ [3, 4, 16, 4, 24, s.address, 0])

/-! ### RECORD_TAKE -/

/-- The bytes of part `k` of a record (R168). -/
def recordPart (r : Record) (k : Nat) : List Byte :=
  match k with
  | 0 => recordPart0 r
  | i + 1 => (r.results[i]?.map resultPart).getD []

/-- The oldest record removed where `last` (R168). -/
def State.dropRecord (s : State) (last : Bool) : State := if last then { s with records := s.records.drop 1 } else s

/-- RECORD_TAKE decided (R168). Section 12.3 gives the removed mark of its reply a byte and no code: 1 for set and 0 for
clear (DESIGN CHOICE, log 24). -/
def decideRecordTake (a : Asked) (s : State) : Decision :=
  withArgs s (decodeRecordTake a.args) fun r =>
    if 4 < r.part then refuse s .badArg
    else
      match s.records with
      | [] => refuse s .empty
      | old :: _ =>
        if r.tag ≠ 0 ∧ r.tag ≠ old.tag then refuse s .notFound
        else if old.results.length < r.part then refuse s .badArg
        else
          let last := r.part == old.results.length
          let t := s.dropRecord last
          accept t ([BitVec.ofNat 8 r.part, flagBit 0 last] ++ t.storeCounts ++ recordPart old r.part)

/-! ### SCALE_RESULT -/

/-- The entry of lane `n` where it is present and carries the tag (R128 step 2). -/
def State.entryOf (s : State) (tag : Nat) (n : LaneId) : Option ReconEntry :=
  (s.lane n).recon.filter fun e => e.tag == tag

/-- The lowest-numbered lane whose entry carries the tag and is not reconciled, with its entry (R128). -/
def State.openEntry (s : State) (tag : Nat) : Option (LaneId × ReconEntry) :=
  allLanes.findSome? fun n => ((s.entryOf tag n).filter fun e => !e.reconciled).map fun e => (n, e)

/-- A weighed mass decided against lane `n`'s entry (R129, R130, R132). -/
def State.scaleLane (s : State) (n : LaneId) (e : ReconEntry) (netKg : Nat) : Decision :=
  let before := (s.lane n).flow.meterFactor
  let (l, applied) := (s.lane n).reconcile e netKg
  { state := s.putLane n l
    reply := some (if applied then .ok else .adjusted,
      [BitVec.ofNat 8 (laneNum n)] ++ be32 e.metered ++ be16 e.factorAtEnd ++ be16 before
        ++ be16 l.flow.meterFactor) }

/-- SCALE_RESULT decided (R128). -/
def decideScaleResult (a : Asked) (s : State) : Decision :=
  withArgs s (decodeScaleResult a.args) fun r =>
    if r.tag = 0 ∨ 4000000 < r.netKg then refuse s .badArg
    else if !allLanes.any (fun n => (s.entryOf r.tag n).isSome) then refuse s .notFound
    else
      match s.openEntry r.tag with
      | some (n, e) => s.scaleLane n e r.netKg
      | none => refuse s .state

/-! ### COUNTERS_READ -/

/-- The counter groups (R183, R191). -/
inductive CounterGroup where
  | ports
  | lane (n : LaneId)
  | unit
deriving DecidableEq, Repr

/-- The group of a byte, none above 5. -/
def counterGroup : Nat → Option CounterGroup
  | 0 => some .ports
  | 1 => some (.lane .lane0)
  | 2 => some (.lane .lane1)
  | 3 => some (.lane .lane2)
  | 4 => some (.lane .lane3)
  | 5 => some .unit
  | _ => none

/-- The clear flag of a clear byte: 0 clear, 1 set, any other value set or clear, free (log 11). -/
def clearFlagOf (b : Byte) : Bool :=
  if b = 0 then false else if b = 1 then true else Config.clearFlag b

/-- The four counters of a port (R148). -/
def portCounterBytes (c : PortCounters) : List Byte :=
  be32 c.checkErrors ++ be32 c.formErrors ++ be32 c.fragments ++ be32 c.forwardDrops

/-- The six counters of a lane (R183). -/
def laneCounterBytes (c : LaneCounters) : List Byte :=
  be32 c.samplesTaken ++ be32 c.duplicates ++ be32 c.gaps ++ be32 c.spikes ++ be32 c.formErrors ++ be32 c.screened

/-- The values of a group as they stand (R183). -/
def State.counterBytes (s : State) : CounterGroup → List Byte
  | .ports => linkByte s :: (portCounterBytes s.up.common.counters ++ portCounterBytes s.dp.common.counters)
  | .lane n => laneCounterBytes (s.lane n).counters
  | .unit => be32 s.unanswered ++ be32 s.wrongPort ++ s.storeCounts

/-- The counters of a group set to 0 (R183). -/
def State.zeroCounters (s : State) : CounterGroup → State
  | .ports =>
    { s with
      up := { s.up with common := { s.up.common with counters := PortCounters.zero } }
      dp := { s.dp with common := { s.dp.common with counters := PortCounters.zero } } }
  | .lane n => s.onLane n fun l => { l with counters := LaneCounters.zero }
  | .unit => { s with unanswered := 0, wrongPort := 0 }

/-- COUNTERS_READ decided (R183): a group that is not listed is answered BAD_ARG, any other request OK. -/
def decideCountersRead (a : Asked) (s : State) : Decision :=
  withArgs s (decodeCountersRead a.args) fun r =>
    match counterGroup r.group with
    | some g =>
      accept (if clearFlagOf r.clear then s.zeroCounters g else s) (BitVec.ofNat 8 r.group :: s.counterBytes g)
    | none => refuse s .badArg

/-! ### RESTART -/

/-- RESTART decided (R185): BUSY while one is not complete, STATE where lanes are filling and the force flag is CLEAR,
otherwise the acceptance of a forced restart or the completion at once. -/
def decideRestart (a : Asked) (s : State) : Decision :=
  withArgs s (decodeByteArg a.args) fun force =>
    if 1 < force then refuse s .badArg
    else if s.restart.isSome then refuse s .busy
    else if s.anyRunning then
      if force = 0 then refuse s .state
      else { state := s.acceptRestart a.src a.tagHi a.tagLo force, reply := none }
    else accept s.restarted (s.restartResults force .immediate)

/-! ### Kinds the unit does not know -/

/-- The answer to a kind the unit does not know (R179 step 2). -/
def decideUnknown (_a : Asked) (s : State) : Decision := refuse s .unknown

/-- The owner's decision for a request kind: the twenty kinds of section 11.3, and UNKNOWN for any other. -/
def decisionOf (kind : Byte) : Asked → State → Decision :=
  match kind.toNat with
  | 0x01 => decideIdent
  | 0x02 => decideRouteSet
  | 0x03 => decideRouteClear
  | 0x04 => decideRouteRead
  | 0x05 => decideParamSet
  | 0x06 => decideCurveSet
  | 0x07 => decideCommit
  | 0x08 => decideBankRead
  | 0x09 => decideLaneMode
  | 0x0A => decideZeroCal
  | 0x0B => decideOrderPost
  | 0x0C => decideOrderCancel
  | 0x0D => decideOrderList
  | 0x0E => decideLaneRead
  | 0x0F => decideRecordTake
  | 0x10 => decideScaleResult
  | 0x11 => decideFaultClear
  | 0x12 => decideTotalClear
  | 0x13 => decideCountersRead
  | 0x14 => decideRestart
  | _ => decideUnknown

/-- A request given by its whole payload: an empty one carries neither kind nor tag and is answered BAD_ARG with 0 for
both (R179 step 1); a known kind is answered as that kind (log 7). -/
def State.respondPayload (s : State) (src : Byte) : List Byte → State
  | kind :: body => s.respond kind src body (decisionOf kind)
  | [] =>
    if s.transparent || !inTurn s.toResponder (src, []) then s
    else
      let s := { s with toResponder := s.toResponder.erase (src, []) }
      if 4 ≤ s.up.replies.length then s.discardRequest
      else ({ s with controller := src }).queueReply src 0 0 0 .badArg []

/-! ### The commands -/

/-- IDENT (R181). -/
def execIdent (src : Byte) (body : List Byte) (s : State) : Host.Outcome State Fault Refusal :=
  .next (s.request 0x01 src body decideIdent)

/-- RECORD_TAKE (R168). -/
def execRecordTake (src : Byte) (body : List Byte) (s : State) : Host.Outcome State Fault Refusal :=
  .next (s.request 0x0F src body decideRecordTake)

/-- SCALE_RESULT (R128). -/
def execScaleResult (src : Byte) (body : List Byte) (s : State) : Host.Outcome State Fault Refusal :=
  .next (s.request 0x10 src body decideScaleResult)

/-- COUNTERS_READ (R183). -/
def execCountersRead (src : Byte) (body : List Byte) (s : State) : Host.Outcome State Fault Refusal :=
  .next (s.request 0x13 src body decideCountersRead)

/-- RESTART (R185). -/
def execRestart (src : Byte) (body : List Byte) (s : State) : Host.Outcome State Fault Refusal :=
  .next (s.request 0x14 src body decideRestart)

/-- UNKNOWN_REQUEST (R179). -/
def execUnknownRequest (src : Byte) (payload : List Byte) (s : State) : Host.Outcome State Fault Refusal :=
  .next (s.whileRunning fun s => s.respondPayload src payload)

end Sys2Proof.Machine
end

