-- ==== Sys2Proof/Machine/Dispatch.lean ====
section
/-! DEFINITION. exec: one arm per command, each one call of its meaning. -/

namespace Sys2Proof.Machine

def exec (i : Instr) (s : State) : Host.Outcome State Fault Refusal :=
  match i with
  | .powerOn straps => Sys2Proof.Machine.execPowerOn straps s
  | .resetPinAssert => Sys2Proof.Machine.execResetPinAssert s
  | .resetPinRelease straps => Sys2Proof.Machine.execResetPinRelease straps s
  | .startDelimiter port => Sys2Proof.Machine.execStartDelimiter port s
  | .overlongFrame port data => Sys2Proof.Machine.execOverlongFrame port data s
  | .lineBreak port => Sys2Proof.Machine.execLineBreak port s
  | .linkDown port => Sys2Proof.Machine.execLinkDown port s
  | .frameEnd port data => Sys2Proof.Machine.execFrameEnd port data s
  | .frameClassify port frame => Sys2Proof.Machine.execFrameClassify port frame s
  | .sample lane frame => Sys2Proof.Machine.execSample lane frame s
  | .silenceExpiry lane => Sys2Proof.Machine.execSilenceExpiry lane s
  | .openTimerExpiry lane => Sys2Proof.Machine.execOpenTimerExpiry lane s
  | .closeTimerExpiry lane => Sys2Proof.Machine.execCloseTimerExpiry lane s
  | .fallTimerExpiry lane => Sys2Proof.Machine.execFallTimerExpiry lane s
  | .settleTimerExpiry lane => Sys2Proof.Machine.execSettleTimerExpiry lane s
  | .gangTimerExpiry lane => Sys2Proof.Machine.execGangTimerExpiry lane s
  | .restartBoundExpiry => Sys2Proof.Machine.execRestartBoundExpiry s
  | .dpSelection => Sys2Proof.Machine.execDpSelection s
  | .upSelection => Sys2Proof.Machine.execUpSelection s
  | .transmitEnd port => Sys2Proof.Machine.execTransmitEnd port s
  | .ident src body => Sys2Proof.Machine.execIdent src body s
  | .routeSet src body => Sys2Proof.Machine.execRouteSet src body s
  | .routeClear src body => Sys2Proof.Machine.execRouteClear src body s
  | .routeRead src body => Sys2Proof.Machine.execRouteRead src body s
  | .paramSet src body => Sys2Proof.Machine.execParamSet src body s
  | .curveSet src body => Sys2Proof.Machine.execCurveSet src body s
  | .commit src body => Sys2Proof.Machine.execCommit src body s
  | .bankRead src body => Sys2Proof.Machine.execBankRead src body s
  | .laneMode src body => Sys2Proof.Machine.execLaneMode src body s
  | .zeroCal src body => Sys2Proof.Machine.execZeroCal src body s
  | .orderPost src body => Sys2Proof.Machine.execOrderPost src body s
  | .orderCancel src body => Sys2Proof.Machine.execOrderCancel src body s
  | .orderList src body => Sys2Proof.Machine.execOrderList src body s
  | .laneRead src body => Sys2Proof.Machine.execLaneRead src body s
  | .recordTake src body => Sys2Proof.Machine.execRecordTake src body s
  | .scaleResult src body => Sys2Proof.Machine.execScaleResult src body s
  | .faultClear src body => Sys2Proof.Machine.execFaultClear src body s
  | .totalClear src body => Sys2Proof.Machine.execTotalClear src body s
  | .countersRead src body => Sys2Proof.Machine.execCountersRead src body s
  | .restart src body => Sys2Proof.Machine.execRestart src body s
  | .unknownRequest src payload => Sys2Proof.Machine.execUnknownRequest src payload s

end Sys2Proof.Machine
end

