-- ==== Sys2Proof/Machine/Step.lean ====
section
/-! DEFINITION. One step: the command at the front of the queue, or one millisecond of part time. -/

namespace Sys2Proof.Machine

/-- One millisecond of part time (R188): the count advances and wraps; while the reset pin is held it does not
advance. -/
def State.tick (s : State) : State := if s.held then s else { s with clock := s.clock + 1 }

/-- One step: the command at the front of the queue acts on the state with the rest of the queue; on an empty queue
a millisecond of part time passes (DESIGN CHOICE, log 2). -/
def step (s : State) : Host.Outcome State Fault Refusal :=
  match s.pending with
  | c :: rest => exec c { s with pending := rest }
  | [] => .next s.tick

/-- `s` with the command that a word spells put at the front of its queue; no word of this table spells one (log 1). -/
def State.withFetchWord (s : State) (nbits w : Nat) : State :=
  match decodeTableWord nbits w with
  | some c => { s with pending := c :: s.pending }
  | none => s

end Sys2Proof.Machine
end

