-- ==== Sys2Proof/Safety.lean ====
section
/-! DEFINITION. What a sound unit looks like between events: the properties the spec says hold at all times, and the
words, written from the rules, in which the statements speak of samples, of the sequencer and of requests. -/

namespace Sys2Proof.Machine

/-! ### Bounds (R16, R70, R138, R142, R148, R177, R184) -/

/-- Forward queues hold at most 8 frames, the reply queue at most 4 replies, each lane's queue at most 4 orders
(R70, R138, R177). -/
def State.QueuesBounded (s : State) : Prop :=
  s.up.forward.length ≤ 8 ∧ s.dp.forward.length ≤ 8 ∧ s.up.replies.length ≤ 4
    ∧ ∀ n, (s.queue n).length ≤ 4

/-- A port's four counters fit 32 bits (R148). -/
def PortCounters.Bounded (c : PortCounters) : Prop :=
  c.checkErrors ≤ 4294967295 ∧ c.formErrors ≤ 4294967295 ∧ c.fragments ≤ 4294967295
    ∧ c.forwardDrops ≤ 4294967295

/-- A lane's six counters fit 32 bits (R16, R162). -/
def LaneCounters.Bounded (c : LaneCounters) : Prop :=
  c.samplesTaken ≤ 4294967295 ∧ c.duplicates ≤ 4294967295 ∧ c.gaps ≤ 4294967295 ∧ c.spikes ≤ 4294967295
    ∧ c.formErrors ≤ 4294967295 ∧ c.screened ≤ 4294967295

/-- Every counter of the unit fits 32 bits (R16, R148, R162, R184). -/
def State.CountersBounded (s : State) : Prop :=
  s.up.common.counters.Bounded ∧ s.dp.common.counters.Bounded ∧ s.unanswered ≤ 4294967295
    ∧ s.wrongPort ≤ 4294967295 ∧ ∀ n, (s.lane n).counters.Bounded

/-- The urgent queue never holds two entries for the same lane and kind (R142). -/
def State.UrgentDistinct (s : State) : Prop :=
  (s.dp.urgent.map fun e => (e.lane, e.kind)).Nodup

/-! ### One lane -/

/-- The tare reference is a 16-bit signed number and the tare lies within the drift band (R19). -/
def Lane.TareInBand (l : Lane) : Prop :=
  -32768 ≤ l.zero.tareRef ∧ l.zero.tareRef ≤ 32767
    ∧ driftLow l.zero.tareRef l.params.driftLimit ≤ l.zero.tare
    ∧ l.zero.tare ≤ driftHigh l.zero.tareRef l.params.driftLimit

/-- Every curve slot's flow is at most 200000 g/s (R45). -/
def Bank.FlowsBounded (b : Bank) : Prop :=
  ∀ r : Regime, ∀ p ∈ (b.curves.get r).slots.toList, p.flow ≤ 200000

/-- The meter factor lies within 9000 to 11000, Q within 0 to 220000, the residues below 10000 and the manual total
within 32 bits (R58, R62, R63, R65), the curve flows within their range (R45). -/
def Lane.MeterInRange (l : Lane) : Prop :=
  9000 ≤ l.flow.meterFactor ∧ l.flow.meterFactor ≤ 11000 ∧ l.flow.flow ≤ 220000
    ∧ l.integ.residue ≤ 9999 ∧ l.integ.manualResidue ≤ 9999 ∧ l.integ.manualTotal ≤ 4294967295
    ∧ l.flow.active.FlowsBounded ∧ l.flow.staged.FlowsBounded

/-- Each trim lies within plus or minus the active bank's trim limit (R119). -/
def Lane.TrimsInLimit (l : Lane) : Prop :=
  ∀ r : Regime, -(l.params.trimLimit : Int) ≤ l.trims.get r ∧ l.trims.get r ≤ l.params.trimLimit

/-- The history holds at most W entries, each a 16-bit signed number, and the last gate position is at most 1000
(R2, R6, R13). -/
def Lane.HistoryInWindow (l : Lane) : Prop :=
  l.cond.history.length ≤ l.params.window ∧ (∀ x ∈ l.cond.history, -32768 ≤ x ∧ x ≤ 32767)
    ∧ ∀ g, l.cond.lastGate = some g → g ≤ 1000

/-- The candidate is FLUSHING only with FLUSHING active, and is otherwise the pressure candidate, which is never
FLUSHING (R33, R35, R38). -/
def Lane.RegimesConsistent (l : Lane) : Prop :=
  l.cls.pressureCand ≠ .flushing
    ∧ (l.cls.candidate = .flushing → l.cls.active = .flushing)
    ∧ (l.cls.candidate ≠ .flushing → l.cls.candidate = l.cls.pressureCand)

/-- Every parameter of a bank within the range of R46, the coupled pairs included (R50). -/
def Params.InRange (p : Params) : Prop :=
  p.window ∈ [1, 2, 4, 8, 16, 32] ∧ p.spikeLimit ≤ 32767 ∧ 2 ≤ p.gapLimit ∧ p.gapLimit ≤ 1000
    ∧ 1 ≤ p.nominalInterval ∧ p.nominalInterval ≤ p.gapLimit ∧ p.zeroBand ≤ 2000
    ∧ 100 ≤ p.zeroHold ∧ p.zeroHold ≤ 60000 ∧ p.driftLimit ≤ 8000
    ∧ p.pLow < p.pHigh ∧ p.pHigh ≤ 6000 ∧ 1 ≤ p.flushRun ∧ p.flushRun ≤ 255 ∧ p.regimeSettle ≤ 10000
    ∧ 1 ≤ p.fillPosition ∧ p.fillPosition ≤ 1000 ∧ 1 ≤ p.tricklePosition ∧ p.tricklePosition ≤ 1000
    ∧ 1 ≤ p.flushPosition ∧ p.flushPosition ≤ 1000 ∧ p.closedBand ≤ 100 ∧ p.trickleBand ≤ 50000
    ∧ p.fallTime ≤ 5000 ∧ p.trimLimit ≤ 500000 ∧ p.learnGain ≤ 16 ∧ p.learnWindow ≤ 1000000
    ∧ 100 ≤ p.confirmTime ∧ p.confirmTime ≤ 10000 ∧ p.gateRetries ≤ 7
    ∧ 200 ≤ p.settleTime ∧ p.settleTime ≤ 30000 ∧ p.settleFlow ≤ 20000
    ∧ 10 ≤ p.silenceTime ∧ p.silenceTime ≤ 5000 ∧ p.reconcileGain ≤ 16
    ∧ 1 ≤ p.reconcileWindow ∧ p.reconcileWindow ≤ 200 ∧ 1000 ≤ p.gangWait ∧ p.gangWait ≤ 600000

/-- The parameters of both banks of a lane within their ranges (R46). -/
def Lane.BanksInRange (l : Lane) : Prop := l.flow.active.params.InRange ∧ l.flow.staged.params.InRange

/-- The hold cause is NONE outside ARMED and INDEXING, and a fault cause stands just in FAULT (R93, R97, R110, R111). -/
def Lane.CausesMatch (l : Lane) : Prop :=
  (l.seq.holdCause ≠ .none → l.seq.state = .armed ∨ l.seq.state = .indexing)
    ∧ (l.seq.faultCause ≠ .none ↔ l.seq.state = .fault)

/-- Every curve count of a bank is at most 16 (R45). -/
def Bank.CountsBounded (b : Bank) : Prop := ∀ r : Regime, (b.curves.get r).count ≤ 16

/-- Curve counts within bounds, and a staged bank that waits to be applied is valid (R45, R53). -/
def Lane.CalibrationSound (l : Lane) : Prop :=
  l.flow.active.CountsBounded ∧ l.flow.staged.CountsBounded
    ∧ (l.flow.commitPending = true → l.flow.staged.curvesValid = true)

/-! ### Routes and service -/

/-- What one used entry must be: an address of 1 to 126 other than the unit's own, a lane set with a member (R151). -/
def RouteEntry.Sound (own : Byte) : RouteEntry → Prop
  | .head a _ => 1 ≤ a.toNat ∧ a.toNat ≤ 126 ∧ a ≠ own
  | .isolation a ls => 1 ≤ a.toNat ∧ a.toNat ≤ 126 ∧ a ≠ own ∧ ∃ n, ls.get n = true

/-- The route table's constraints: sound entries, no two used ones with one station address, no two HEAD entries for
one lane, no lane in the sets of two ISOLATION entries (R151). -/
def State.RoutesSound (s : State) : Prop :=
  (∀ i e, s.routeAt i = some e → e.Sound s.address)
    ∧ ∀ i j : Nat, i ≠ j → ∀ e f : RouteEntry, s.routeAt i = some e → s.routeAt j = some f →
        routeAddress e ≠ routeAddress f ∧ sameHead e f = false ∧ sharedIsolation e f = false

/-- A lane in MANUAL or AUTO has its head routed and three valid active curves (R47, R151). -/
def State.InServiceSound (s : State) : Prop :=
  ∀ n, (s.lane n).CalibrationSound
    ∧ ((s.lane n).seq.mode ≠ .outOfService →
        (s.headOf n).isSome = true ∧ (s.lane n).flow.active.curvesValid = true)

/-! ### Orders, reservations and records -/

/-- The states in which a lane holds one active order and one reservation (R96). -/
def LaneState.holdsReservation : LaneState → Bool
  | .gangWait | .filling | .trickle | .cutoff | .settling | .indexing => true
  | .idle | .armed | .fault => false

/-- The states in which a lane has an active order. -/
def LaneState.hasOrder (st : LaneState) : Bool := st == .armed || st.holdsReservation

/-- The orders of a lane agree with its mode and state: outside AUTO the queue is empty and the state IDLE; an order is
active just in the states that have one, only at the head, and holds a reservation just in the states of R96
(R70, R73, R96). -/
def State.OrdersConsistent (s : State) (n : LaneId) : Prop :=
  ((s.lane n).seq.mode ≠ .auto → s.queue n = [] ∧ (s.lane n).seq.state = .idle)
    ∧ ((s.activeOrder n).isSome = (s.lane n).seq.state.hasOrder)
    ∧ (∀ o, s.activeOrder n = some o → o.reserved = (s.lane n).seq.state.holdsReservation)
    ∧ (∀ o ∈ s.queue n, o.active = false → o.reserved = false)
    ∧ (∀ o ∈ (s.queue n).drop 1, o.active = false)

/-- The number of lanes in a state that holds a reservation. -/
def State.holders (s : State) : Nat :=
  (allLanes.filter fun n => (s.lane n).seq.state.holdsReservation).length

/-- The record store agrees with the lanes: one reservation for each lane in the states of R96, and records held plus
reservations never exceed 24 (R96, R163). -/
def State.StoreSound (s : State) : Prop :=
  (∀ n, s.OrdersConsistent n) ∧ s.reservations = s.holders ∧ s.records.length + s.reservations ≤ 24

/-! ### Transparent mode and the drain of a forced restart -/

/-- In transparent mode the lanes stay out of service, the controller address stays 0, no restart is under way, and the
position slots, the urgent queue and the reply queue stay empty (R147). -/
def State.TransparentQuiet (s : State) : Prop :=
  s.transparent = true →
    (∀ n, (s.lane n).seq.mode = .outOfService ∧ s.dp.slots.get n = none) ∧ s.controller = 0
      ∧ s.restart = none ∧ s.dp.urgent = [] ∧ s.up.replies = []

/-- Between the acceptance of a forced RESTART and its completion no position slot holds a command (R116, R141). -/
def State.DrainWithoutPositions (s : State) : Prop :=
  s.restart.isSome = true → ∀ n, s.dp.slots.get n = none

/-- The unit acts on the link: the reset pin is not held and the straps name a station (R146, R188). -/
def State.Working (s : State) : Prop := s.held = false ∧ s.transparent = false

/-! ### Words for what a sample does (chapters 1 to 4)

What the rules say of a sample that is no duplicate, written from their tables: `l` is the lane as the sample finds it,
`m` what the sample carries. -/

/-- A counter raised by 1 and held at 4,294,967,295. -/
def raised (n : Nat) : Nat := min 4294967295 (n + 1)

/-- The lane is in AUTO and in FILLING, TRICKLE, CUTOFF or SETTLING (R10, R20, R61, R63, R115). -/
abbrev Lane.Runs (l : Lane) : Prop :=
  l.seq.mode = .auto
    ∧ (l.seq.state = .filling ∨ l.seq.state = .trickle ∨ l.seq.state = .cutoff ∨ l.seq.state = .settling)

/-- The sum of the entries divided by their number, truncated toward zero (R13, R59). -/
def meanOf (h : List Int) : Int := h.sum.tdiv h.length

/-- The raw interval exceeds the gap limit; a first sample has none (R7, R8, R10). -/
def Lane.isGap (l : Lane) (m : Meas) : Bool :=
  l.cond.prevTimestamp.any fun prev => l.params.gapLimit < (m.timestamp - prev).toNat

/-- The interval handed on, in ticks: 0 for a first sample, the nominal interval for a gap sample (R7, R8, R10). -/
def Lane.ticks (l : Lane) (m : Meas) : Nat :=
  match l.cond.prevTimestamp with
  | none => 0
  | some prev => if l.isGap m then l.params.nominalInterval else (m.timestamp - prev).toNat

/-- The net force (R11). -/
def Lane.netOf (l : Lane) (m : Meas) : Int := max (-32768) (min 32767 (m.force - l.zero.tare))

/-- The net force held within the spike limit of the history's average (R12). -/
def Lane.limitedOf (l : Lane) (m : Meas) : Int :=
  if l.params.spikeLimit = 0 ∨ l.cond.history = [] then l.netOf m
  else
    max (meanOf l.cond.history - l.params.spikeLimit) (min (meanOf l.cond.history + l.params.spikeLimit) (l.netOf m))

/-- The history after the sample: its limited net force joins, the oldest entry leaving a full window (R13). -/
def Lane.historyAfter (l : Lane) (m : Meas) : List Int :=
  let h := l.cond.history ++ [l.limitedOf m]
  if l.params.window < h.length then h.drop 1 else h

/-- The average handed on (R13, R59). -/
def Lane.averageAfter (l : Lane) (m : Meas) : Int := meanOf (l.historyAfter m)

/-- The sample qualifies for zero tracking (R20). -/
abbrev Lane.TracksZero (l : Lane) (m : Meas) : Prop :=
  l.seq.mode ≠ .outOfService ∧ ¬l.Runs ∧ m.gate ≤ l.params.closedBand ∧ (l.averageAfter m).natAbs ≤ l.params.zeroBand

/-- The zero tracker after the sample: the hold accumulator and, at the end of a full hold, the tare step, held within
the drift band with BUILDUP set where the band cuts it (R19, R21 to R23). -/
def Lane.zeroAfter (l : Lane) (m : Meas) : ZeroTracker :=
  let held := l.zero.holdAcc + l.ticks m
  let a := l.averageAfter m
  let candidate := l.zero.tare + (if 8 ≤ a.natAbs then a.tdiv 8 else if 0 < a then 1 else if a < 0 then -1 else 0)
  let low := max (-32768) (l.zero.tareRef - l.params.driftLimit)
  let high := min 32767 (l.zero.tareRef + l.params.driftLimit)
  if ¬l.TracksZero m then { l.zero with holdAcc := 0 }
  else if held < l.params.zeroHold * 10 then { l.zero with holdAcc := held }
  else
    { l.zero with
      holdAcc := 0
      tare := if candidate < low then low else if high < candidate then high else candidate
      buildup := l.zero.buildup || candidate < low || high < candidate }

/-- The classifier after the sample, step by step (R32 to R39). -/
structure Lane.Classified (l : Lane) (m : Meas) (c : Classifier) : Prop where
  pressure : c.pressureCand =
    (if m.pressure < l.params.pLow then .settled
     else if l.params.pHigh ≤ m.pressure then .aerated else l.cls.pressureCand)
  flushRun : c.flushRun = (if l.limitedOf m < l.netOf m then min 255 (l.cls.flushRun + 1) else 0)
  flushing : l.cls.candidate = .flushing →
    let calm := if l.limitedOf m = l.netOf m then l.cls.calmRun + 1 else 0
    if l.params.window ≤ calm then c.candidate = c.pressureCand ∧ c.calmRun = 0
    else c.candidate = .flushing ∧ c.calmRun = calm
  otherwise : l.cls.candidate ≠ .flushing →
    if l.params.flushRun ≤ c.flushRun then c.candidate = .flushing ∧ c.calmRun = 0
    else c.candidate = c.pressureCand ∧ c.calmRun = l.cls.calmRun
  equal : c.candidate = l.cls.active → c.active = l.cls.active ∧ c.settleAcc = 0
  flooded : c.candidate ≠ l.cls.active → c.candidate = .flushing → c.active = .flushing ∧ c.settleAcc = 0
  switching : c.candidate ≠ l.cls.active → c.candidate ≠ .flushing →
    let stood := if c.candidate = l.cls.candidate then l.cls.settleAcc + l.ticks m else 0
    if l.params.regimeSettle * 10 ≤ stood then c.active = c.candidate ∧ c.settleAcc = 0
    else c.active = l.cls.active ∧ c.settleAcc = stood

/-- The breakpoints of a curve (R45). -/
def Curve.breakpoints (c : Curve) : List Breakpoint := c.slots.toList.take c.count

/-- A curve as R47 asks for it: from force 0 and flow 0, at least two breakpoints, forces rising, flows not falling. -/
def Curve.Rising (c : Curve) : Prop :=
  c.breakpoints[0]? = some { force := 0, flow := 0 } ∧ 2 ≤ c.breakpoints.length
    ∧ ∀ i b e, c.breakpoints[i]? = some b → c.breakpoints[i + 1]? = some e → b.force < e.force ∧ b.flow ≤ e.flow

/-- `q` is the curve flow of the average `a`: the table of R60. -/
def Curve.Gives (c : Curve) (a : Int) (q : Nat) : Prop :=
  (a ≤ 0 → q = 0)
    ∧ (∀ e, c.breakpoints.getLast? = some e → 0 < a → e.force ≤ a → q = e.flow)
    ∧ ∀ i b e, c.breakpoints[i]? = some b → c.breakpoints[i + 1]? = some e → 0 < a → b.force ≤ a → a < e.force →
        q = b.flow + (a.toNat - b.force) * (e.flow - b.flow) / (e.force - b.force)

/-- The average stands at or above the force of the last breakpoint (R61). -/
def Curve.reachedBy (c : Curve) (a : Int) : Bool := c.breakpoints.getLast?.any fun e => e.force ≤ a

/-- The integrator after a sample of flow `q` grams per second (R63, R65). -/
def Lane.integAfter (l : Lane) (m : Meas) (q : Nat) : Integrator :=
  let p := q * l.ticks m
  if l.cond.prevTimestamp = none then l.integ
  else if l.seq.mode = .manual then
    if l.integ.manualFull then l.integ
    else if 4294967295 < l.integ.manualTotal + (l.integ.manualResidue + p) / 10000 then
      { l.integ with manualTotal := 4294967295, manualResidue := 0, manualFull := true }
    else
      { l.integ with
        manualTotal := l.integ.manualTotal + (l.integ.manualResidue + p) / 10000
        manualResidue := (l.integ.manualResidue + p) % 10000 }
  else if l.Runs then
    { l.integ with
      grams := l.integ.grams + (l.integ.residue + p) / 10000
      residue := (l.integ.residue + p) % 10000 }
  else l.integ

/-- `l'` is the lane `l` after stages 1 to 4 of a sample that is no duplicate (R5). -/
structure Lane.Handled (now : BitVec 32) (l : Lane) (m : Meas) (l' : Lane) : Prop where
  conditioned : l'.cond =
    { prevTimestamp := some m.timestamp, history := l.historyAfter m, lastFlags := some m.flags.kept,
      lastGate := some m.gate }
  counted : l'.counters = { l.counters with
    samplesTaken := raised l.counters.samplesTaken
    gaps := if l.isGap m then raised l.counters.gaps else l.counters.gaps
    spikes := if l.limitedOf m = l.netOf m then l.counters.spikes else raised l.counters.spikes }
  tracked : l'.zero = l.zeroAfter m
  classified : l.Classified m l'.cls
  metered : ∃ q, ((l.flow.active.curves.get l'.cls.active).Rising →
        (l.flow.active.curves.get l'.cls.active).Gives (l.averageAfter m) q)
    ∧ l'.flow = { l.flow with
        flow := q * l.flow.meterFactor / 10000
        overrange := l.flow.overrange
          || (decide (l.seq.mode = .manual ∨ l.Runs)
            && (l.flow.active.curves.get l'.cls.active).reachedBy (l.averageAfter m)) }
  integrated : l'.integ = l.integAfter m l'.flow.flow
  heard : l'.seq = { l.seq with
    silenceTimer := some { start := now, duration := l.params.silenceTime }
    silentMark := false
    liftMark := l.seq.liftMark || !m.flags.bellowsDown
    gap := l.seq.gap || (l.isGap m && decide l.Runs) }
  kept : l'.trims = l.trims ∧ l'.recon = l.recon ∧ l'.resumeMark = l.resumeMark ∧ l'.screenedMark = l.screenedMark

/-- The lane's engine takes this sample now: the unit works, no routed measurement classified before it waits, and the
frame carries `m` (R1, R147, R158; the list of those that wait is log 6, that the frame's route is not read log 28). -/
def State.Hears (s : State) (n : LaneId) (f : Frame) (m : Meas) : Prop :=
  s.Working ∧ inTurn s.toLanes (n, f) = true ∧ readMeas f.payload = some m

/-- `s` at the start of a sample's stage 5, lane `n` standing as `l'`: the note slot is pending where the silent mark
was cleared, BUILDUP newly set or the active regime changed (R3, R23, R41). -/
def State.atStage5 (s : State) (n : LaneId) (f : Frame) (l' : Lane) : State :=
  { s with
    toLanes := s.toLanes.erase (n, f)
    lanes := s.lanes.set n l'
    up := { s.up with laneNotes :=
      if (s.lane n).seq.silentMark = true ∨ l'.zero.buildup ≠ (s.lane n).zero.buildup
          ∨ l'.cls.active ≠ (s.lane n).cls.active then s.up.laneNotes.set n true
      else s.up.laneNotes } }

/-- The ten bytes of a lane trailer: the state in bits 0 to 3 with the not-applicable mark in bit 7, the regime, the flow
and the grams (R139, R190). -/
def trailerOf (state : LaneState) (notApplicable : Bool) (regime : Regime) (flow grams : Nat) : List Byte :=
  [state.code ||| (if notApplicable then 0x80 else 0), regime.code] ++ be32 flow ++ be32 grams

/-- `s` when lane `n`'s sample has been handled: the trailer of the lane as it then stands handed over, the resume mark
cleared, the annotated frame on its way upward (R18, R139). -/
def State.trailed (s : State) (n : LaneId) (f : Frame) : State :=
  let l := s.lane n
  let state := if l.seq.mode = .auto then l.seq.state else .idle
  let grams := if l.seq.mode = .manual then l.integ.manualTotal else l.integ.grams
  { s with lanes := s.lanes.set n { l with resumeMark := false } }.forwardUp
    (makeFrame f.dest f.src f.kind
      (f.payload ++ trailerOf state l.resumeMark l.cls.active l.flow.flow grams))

/-! ### Words for what the sequencer does (chapters 5 and 6) -/

/-- The entry that a CLOSE of this kind for lane `n` adds to the urgent queue, to the station routed for it; none where
no station is routed or where the queue holds one of that lane and kind (R114, R140, R142). -/
def State.closing (s : State) (n : LaneId) (k : UrgentKind) : List UrgentEntry :=
  match if k = .headClose then s.headOf n else s.isolationOf n with
  | some dest => if ∃ e ∈ s.dp.urgent, e.lane = n ∧ e.kind = k then [] else [{ lane := n, kind := k, dest, sending := false }]
  | none => []

/-- `urgent` is the urgent queue of `s` with these closes behind what it held, in whatever order among them. -/
def State.ClosesPlaced (s : State) (closes : List (LaneId × UrgentKind)) (urgent : List UrgentEntry) : Prop :=
  ∃ added, urgent = s.dp.urgent ++ added ∧ added.Perm (closes.flatMap fun c => s.closing c.1 c.2)

/-- What a POSITION command placed for lane `n` leaves in its slot (R116, R140, R141). -/
def State.slotAfter (s : State) (n : LaneId) (position : Nat) : Option SlotCommand :=
  match s.headOf n with
  | some dest => if s.restart = none then some { dest, position } else s.dp.slots.get n
  | none => s.dp.slots.get n

/-- The time base once this timer has expired: as it stands, or, where the expiry comes before the count has reached it,
the timer's end (log 3). -/
def State.timeAt (s : State) (timer : Timer) : BitVec 32 :=
  if timer.duration ≤ (s.clock - timer.start).toNat then s.clock else timer.start + BitVec.ofNat 32 timer.duration

/-- `s` with a POSITION command placed for lane `n`, the position the lane now wants. -/
def State.commanding (s : State) (n : LaneId) (position : Nat) : State :=
  { s with
    lanes := s.lanes.set n { s.lane n with seq := { (s.lane n).seq with wanted := some position } }
    dp := { s.dp with slots := s.dp.slots.set n (s.slotAfter n position) } }

/-- `s` with lane `n`'s hold cause replaced; no note goes with it (R95). -/
def State.holding (s : State) (n : LaneId) (h : HoldCause) : State :=
  { s with lanes := s.lanes.set n { s.lane n with seq := { (s.lane n).seq with holdCause := h } } }

/-- `s` with lane `n` in another state, its sequencer being `q`, and its note slot pending (R171). -/
def State.moved (s : State) (n : LaneId) (q : Sequencer) : State :=
  { s with
    lanes := s.lanes.set n { s.lane n with seq := q }
    up := { s.up with laneNotes := s.up.laneNotes.set n true } }

/-- `s` with the head of lane `n`'s queue replaced. -/
def State.withHead (s : State) (n : LaneId) (o : Order) : State :=
  { s with orders := s.orders.set n (o :: (s.queue n).drop 1) }

/-- The preconditions 1 to 5 that fail, in their order (R95). -/
def Lane.failing (l : Lane) : List HoldCause :=
  let flag := fun (f : HeadFlags → Bool) => l.cond.lastFlags.any f
  (if l.seq.silentMark then [.headSilent] else [])
    ++ (if flag HeadFlags.headFault then [.headFault] else [])
    ++ (if flag HeadFlags.bellowsDown ∧ l.seq.liftMark then [] else [.noVehicle])
    ++ (if flag HeadFlags.levelProbe then [.probeActive] else [])
    ++ (if l.cond.lastGate.any fun g => g ≤ l.params.closedBand then [] else [.gateOpen])

/-- The opening position of compartment `k` and the state it gives (R97). -/
def Lane.opensAt (l : Lane) (o : Order) (k : Nat) : Nat × LaneState :=
  if o.noTrickle = false ∧ o.targets.getD (k - 1) 0 * 1000 ≤ l.params.trickleBand * 1000 then
    (l.params.tricklePosition, .trickle)
  else if l.cls.active = .flushing then (min l.params.flushPosition l.params.fillPosition, .filling)
  else (l.params.fillPosition, .filling)

/-- The lane after its entry to FILLING of compartment `k` (R97). -/
def Lane.opened (l : Lane) (now : BitVec 32) (o : Order) (k : Nat) : Lane :=
  { l with
    integ := { l.integ with grams := 0, residue := 0 }
    flow := { l.flow with overrange := false }
    seq := { l.seq with
      state := (l.opensAt o k).2
      holdCause := .none
      gap := false
      liftMark := false
      openRetries := 0
      closeRetries := 0
      cutoff := none
      wanted := some (l.opensAt o k).1
      openTimer := some { start := now, duration := l.params.confirmTime }
      gangTimer := none } }

/-- `t` is `s` after every lane of `members` has entered FILLING of compartment `k` of its active order: the lane, its
order's index, its opening command and its note; the other lanes and the rest of the unit stay (R81, R97). -/
structure State.Opens (s t : State) (members : List LaneId) (k : Nat) : Prop where
  opened : ∀ n ∈ members, ∀ o, s.activeOrder n = some o →
    t.lane n = (s.lane n).opened s.clock o k
      ∧ t.queue n = { o with compartment := k } :: (s.queue n).drop 1
      ∧ t.dp.slots.get n = s.slotAfter n ((s.lane n).opensAt o k).1
      ∧ t.up.laneNotes.get n = true
  others : ∀ n, n ∉ members →
    t.lane n = s.lane n ∧ t.queue n = s.queue n ∧ t.dp.slots.get n = s.dp.slots.get n
      ∧ t.up.laneNotes.get n = s.up.laneNotes.get n
  rest : t = { s with
    lanes := t.lanes, orders := t.orders
    up := { s.up with laneNotes := t.up.laneNotes }
    dp := { s.dp with slots := t.dp.slots } }

/-- Lane `n` waits in the gang of this tag (R79). -/
def State.Waits (s : State) (gangTag : Nat) (n : LaneId) : Prop :=
  (s.lane n).seq.mode = .auto ∧ (s.lane n).seq.state = .gangWait ∧ ∃ o, s.activeOrder n = some o ∧ o.gangTag = gangTag

/-- The order that a sample of lane `n` may bring to its gang: the head of its queue in IDLE, the active order in ARMED,
the order behind the one that may end in SETTLING (R73, R80, R93). -/
def State.joining (s : State) (n : LaneId) : Option Order :=
  if (s.lane n).seq.mode = .auto then
    match (s.lane n).seq.state with
    | .idle => (s.queue n).head?
    | .armed => s.activeOrder n
    | .gangWait => none
    | .filling => none
    | .trickle => none
    | .cutoff => none
    | .settling => ((s.queue n).drop 1).head?
    | .indexing => none
    | .fault => none
  else none

/-- Lane `n` with active order `o`, its slot reserved, joins its gang: it enters GANG_WAIT with its gang timer started,
and when the waiting count has reached the gang's size every member enters FILLING of compartment 1 (R80, R81). -/
def State.JoinsGang (s t : State) (n : LaneId) (o : Order) : Prop :=
  let joined := s.moved n { (s.lane n).seq with
    state := .gangWait, gangTimer := some { start := s.clock, duration := (s.lane n).params.gangWait } }
  ∃ members : List LaneId, members.Nodup ∧ (∀ k, k ∈ members ↔ joined.Waits o.gangTag k)
    ∧ if members.length < o.gangSize.getD 0 then t = joined else joined.Opens t members 1

/-- `t` is `s` after lane `n`, in ARMED with active order `o`, has tested its preconditions: held by the first that
fails, or its slot reserved and the lane in FILLING of compartment 1 or in its gang (R80, R95, R96, R164). -/
def State.Tests (s t : State) (n : LaneId) (o : Order) : Prop :=
  match (s.lane n).failing with
  | h :: _ => t = s.holding n h
  | [] =>
    if 24 ≤ s.records.length + s.reservations then t = s.holding n .recordsFull
    else
      let reserved := ({ s with reservations := s.reservations + 1 }.holding n .none).withHead n { o with reserved := true }
      if o.gangTag = 0 then reserved.Opens t [n] 1 else reserved.JoinsGang t n o

/-- `t` is `s` after lane `n`, in IDLE, has taken up the head of its queue, if there is one (R73). A head that is active
already, which no run has in IDLE, stays as it is. -/
def State.TakesUp (s t : State) (n : LaneId) : Prop :=
  match s.queue n with
  | [] => t = s
  | o :: _ =>
    if o.active then t = s
    else ((s.moved n { (s.lane n).seq with state := .armed }).withHead n { o with active := true }).Tests t n
      { o with active := true }

/-- The lane with its staged bank applied (R55). -/
def Lane.applied (l : Lane) : Lane :=
  let b := l.flow.staged
  let low := max (-32768) (l.zero.tareRef - b.params.driftLimit)
  let high := min 32767 (l.zero.tareRef + b.params.driftLimit)
  let clamp := fun (x : Int) => max (-(b.params.trimLimit : Int)) (min b.params.trimLimit x)
  { l with
    cond := if b.params.window = l.params.window then l.cond else { l.cond with history := [] }
    zero := { l.zero with
      tare := if l.zero.tare < low then low else if high < l.zero.tare then high else l.zero.tare
      holdAcc := 0
      buildup := l.zero.buildup || l.zero.tare < low || high < l.zero.tare }
    cls := { l.cls with settleAcc := 0 }
    flow := { l.flow with active := b, commitPending := false }
    trims := { settled := clamp l.trims.settled, aerated := clamp l.trims.aerated,
               flushing := clamp l.trims.flushing } }

/-- `t` is `s` after lane `n` has entered IDLE: both causes NONE, a pending bank applied, the head of the queue taken up
(R54, R93). -/
def State.EntersIdle (s t : State) (n : LaneId) : Prop :=
  let idle := s.moved n { (s.lane n).seq with state := .idle, holdCause := .none, faultCause := .none }
  let ready := if (s.lane n).flow.commitPending then { idle with lanes := idle.lanes.set n (idle.lane n).applied } else idle
  ready.TakesUp t n

/-- The lane after its entry to service in the mode it has yet to take (R14, R25, R42, R62, R87). -/
def Lane.entered (l : Lane) : Lane :=
  { l with
    cond := { l.cond with history := [], prevTimestamp := none }
    zero := { l.zero with holdAcc := 0 }
    cls := { pressureCand := .settled, flushRun := 0, calmRun := 0, candidate := .settled, active := .settled,
             settleAcc := 0 }
    flow := { l.flow with flow := 0 } }

/-- The lane after it has left AUTO: IDLE with both causes NONE and its gang timer stopped, a pending bank applied
(R54, R77, R89). -/
def Lane.left (l : Lane) : Lane :=
  let stopped := { l with seq := { l.seq with
    state := .idle, holdCause := .none, faultCause := .none, gangTimer := none } }
  if l.flow.commitPending then stopped.applied else stopped

/-- The lane on its way out of its mode. -/
def Lane.goneOut (l : Lane) : Lane :=
  match l.seq.mode with
  | .outOfService => l.entered
  | .manual => l
  | .auto => l.left

/-- `s` with lane `n` standing as `l'` in mode `m`, its queue discarded and its reservation returned where it was in
AUTO, and its note slot pending (R77, R89). -/
def State.inMode (s : State) (n : LaneId) (m : Mode) (l' : Lane) : State :=
  let fromAuto := (s.lane n).seq.mode = .auto
  ({ s with
    orders := if fromAuto then s.orders.set n [] else s.orders
    reservations := if fromAuto ∧ (s.activeOrder n).any (·.reserved) then s.reservations - 1 else s.reservations
    lanes := s.lanes.set n l' } : State).moved n { l'.seq with mode := m }

/-- `t` is `s` after lane `n` has changed to mode `m` from another mode that lets it: what the way out of the old mode
and the way into the new one bring, and the note; the conditioner, the zero tracker and the classifier stay where the
lane neither enters service nor applies a bank (R77, R88, R89). -/
def State.ChangesMode (s t : State) (n : LaneId) (m : Mode) : Prop :=
  let l := (s.lane n).goneOut
  match m with
  | .auto => (s.inMode n m l).EntersIdle t n
  | .manual => t = s.inMode n m { l with flow := { l.flow with overrange := false } }
  | .outOfService => t = s.inMode n m { l with flow := { l.flow with flow := 0 } }

/-- `s` with the active order `o` of lane `n` ended: its record behind the others, its reservation consumed, the order
out of its queue, the lane's note slot pending (R74, R165 to R167). -/
def State.ended (s : State) (n : LaneId) (o : Order) (outcome : OrderOutcome) (fault : Option FaultCause) : State :=
  { s with
    orders := s.orders.set n ((s.queue n).drop 1)
    records := s.records ++ [{ tag := o.tag, lane := n, vehicle := o.vehicle, targetCount := o.targets.length, outcome,
                               faultCause := fault, factorAtEnd := (s.lane n).flow.meterFactor, results := o.results }]
    reservations := if o.reserved then s.reservations - 1 else s.reservations
    up := { s.up with laneNotes := s.up.laneNotes.set n true } }

/-- A compartment result with the lane's grams and flags as they stand, the cut-off figures given (R108, R167). -/
def Lane.resultFrom (l : Lane) (o : Order) (d : CutoffData) (settleCut learned : Bool) : CompResult :=
  let target := o.targets.getD (o.compartment - 1) 0
  { target, cutoffGrams := d.grams, finalGrams := l.integ.grams
    overshoot := max (-2147483648) (min 2147483647 ((l.integ.grams : Int) - (target * 1000 : Nat)))
    regime := d.regime, cause := d.cause, overrange := l.flow.overrange, gap := l.seq.gap, settleCut, learned }

/-- The cut-off figures of the lane as it stands (R102, R108). -/
def Lane.cutoffNow (l : Lane) (cause : CutCause) : CutoffData :=
  { grams := l.integ.grams, regime := l.cls.active, cause }

/-- `s` after an entry of lane `n` to FAULT that ends its active order `o`: `results` is what the compartment under way
adds, nothing in INDEXING; `urgent` the urgent queue with the closes of the cause (R108, R110). -/
def State.faulted (s : State) (n : LaneId) (o : Order) (cause : FaultCause) (results : List CompResult)
    (urgent : List UrgentEntry) : State :=
  let q := (s.lane n).seq
  let under := results ≠ []
  let stopped := s.moved n { q with
    state := .fault
    faultCause := cause
    holdCause := .none
    openTimer := none
    closeTimer := none
    settleTimer := none
    fallTimer := none
    gangTimer := none
    cutoff := if under then none else q.cutoff
    wanted := if under then none else q.wanted
    gap := if under then false else q.gap }
  let closed := stopped.ended n { o with results := o.results ++ results } .faulted (some cause)
  { closed with dp := { s.dp with slots := s.dp.slots.set n none, urgent } }

/-- `s` after a cut-off of lane `n`; `urgent` is the urgent queue with CLOSE for the head (R102). -/
def State.cutTo (s : State) (n : LaneId) (cause : CutCause) (urgent : List UrgentEntry) : State :=
  let l := s.lane n
  let cut := s.moved n { l.seq with
    state := .cutoff
    openTimer := none
    closeTimer := some { start := s.clock, duration := l.params.confirmTime }
    closeRetries := 0
    cutoff := some (l.cutoffNow cause) }
  { cut with dp := { s.dp with slots := s.dp.slots.set n none, urgent } }

/-- `s` after lane `n`, in GANG_WAIT with active order `o`, has dropped out: ARMED, its timer stopped, its reservation
returned (R82, R165). -/
def State.droppedOut (s : State) (n : LaneId) (o : Order) (h : HoldCause) : State :=
  ({ s with reservations := if o.reserved then s.reservations - 1 else s.reservations }.moved n
    { (s.lane n).seq with state := .armed, holdCause := h, gangTimer := none }).withHead n { o with reserved := false }

/-- Whether the compartment under way qualifies for learning (R122). -/
def Lane.learns (l : Lane) (o : Order) (d : CutoffData) : Bool :=
  d.cause == .preact && !o.cancelNoted && !l.seq.gap
    && (l.resultFrom o d false false).overshoot.natAbs ≤ l.params.learnWindow

/-- The trim of the regime at cut-off, moved by the compartment's overshoot (R123). -/
def Lane.movedTrim (l : Lane) (o : Order) (d : CutoffData) : Int :=
  max (-(l.params.trimLimit : Int)) (min l.params.trimLimit
    (l.trims.get d.regime - ((l.resultFrom o d false false).overshoot * l.params.learnGain).tdiv 16))

/-- The trims after the learner's decision (R123). -/
def Lane.trimsAfter (l : Lane) (o : Order) (d : CutoffData) : PerRegime Int :=
  if l.learns o d then l.trims.set d.regime (l.movedTrim o d) else l.trims

/-- The lane whose compartment has settled, before its order goes on. -/
def Lane.settledLane (l : Lane) (o : Order) (d : CutoffData) : Lane :=
  { l with
    trims := l.trimsAfter o d
    seq := { l.seq with settleTimer := none, fallTimer := none, cutoff := none, wanted := none, gap := false } }

/-- The order whose compartment has settled. -/
def Lane.settledOrder (l : Lane) (o : Order) (d : CutoffData) : Order :=
  { o with results := o.results ++ [{ l.resultFrom o d false false with learned := l.learns o d }] }

/-- The reconciliation entry of the order whose last compartment has settled (R125). -/
def Lane.entryAfter (l : Lane) (o : Order) (d : CutoffData) : ReconEntry where
  tag := o.tag
  metered := min 4294967295 ((l.settledOrder o d).results.map (·.finalGrams)).sum
  factorAtEnd := l.flow.meterFactor
  reconciled := false

/-- `t` is `s` after the settling of lane `n` has ended, its active order being `o` and its cut-off data `d`: the result
learned from where it qualifies and appended, and the order ended or the lane in INDEXING
(R106 to R109, R122, R123, R125). -/
def State.SettlingEnds (s t : State) (n : LaneId) (o : Order) (d : CutoffData) : Prop :=
  let l := (s.lane n).settledLane o d
  let settled := { s with lanes := s.lanes.set n l }.withHead n ((s.lane n).settledOrder o d)
  let ends := fun (u : State) (outcome : OrderOutcome) =>
    (u.ended n ((s.lane n).settledOrder o d) outcome none).EntersIdle t n
  if o.cancelNoted ∨ d.cause = .cancel then ends settled .cancelled
  else if d.cause = .operator then ends settled .stopped
  else if d.cause = .permitLost then ends settled .interrupted
  else if o.compartment < o.targets.length then
    t = settled.moved n { l.seq with state := .indexing, holdCause := .noVehicle, liftMark := false }
  else
    ends { settled with lanes := s.lanes.set n { l with recon := some ((s.lane n).entryAfter o d) } } .complete

/-- `t` is `s` after the completion of a restart whose reply is `reply`: the restart values of every block, and the reply
alone in the reply queue (R117, R149, R186, R187, the table of section 11.6). -/
structure State.Restarted (s t : State) (reply : Reply) : Prop where
  unit : t = { s with
    lanes := t.lanes, orders := t.orders, records := [], reservations := 0, restart := none, unanswered := 0
    wrongPort := 0
    up := { s.up with
      common := { s.up.common with counters := { checkErrors := 0, formErrors := 0, fragments := 0, forwardDrops := 0 } }
      forward := [], replies := [reply], lastServed := .forward, lastNote := .unit
      laneNotes := t.up.laneNotes, unitNote := false }
    dp := { s.dp with
      common := { s.dp.common with counters := { checkErrors := 0, formErrors := 0, fragments := 0, forwardDrops := 0 } }
      forward := [], urgent := [], slots := t.dp.slots, lastServed := .forward, lastLane := .lane3 } }
  lanes : ∀ n, t.queue n = [] ∧ t.dp.slots.get n = none ∧ t.up.laneNotes.get n = false
    ∧ t.lane n = { s.lane n with
      cond := { prevTimestamp := none, history := [], lastFlags := none, lastGate := none }
      counters := { samplesTaken := 0, duplicates := 0, gaps := 0, spikes := 0, formErrors := 0, screened := 0 }
      zero := { (s.lane n).zero with holdAcc := 0 }
      cls := { pressureCand := .settled, flushRun := 0, calmRun := 0, candidate := .settled, active := .settled,
               settleAcc := 0 }
      flow := { (s.lane n).flow with
        staged := (s.lane n).flow.active, commitPending := false, flow := 0, overrange := false }
      integ := { (s.lane n).integ with grams := 0, residue := 0 }
      seq :=
        { mode := (s.lane n).seq.mode, state := .idle, holdCause := .none, faultCause := .none, silentMark := false,
          liftMark := false, gap := false, wanted := none, openRetries := 0, closeRetries := 0, cutoff := none,
          quietRun := 0,
          silenceTimer := some { start := s.clock, duration := (s.lane n).params.silenceTime },
          openTimer := none, closeTimer := none, settleTimer := none, fallTimer := none, gangTimer := none }
      recon := none
      resumeMark := false
      screenedMark := false }

/-- What a RESTART reply carries of the lanes: the tag of each active order and the number of its orders (R187). -/
def State.lanesReport (s : State) : List Byte :=
  allLanes.flatMap fun n => be16 ((s.activeOrder n).elim 0 (·.tag)) ++ [BitVec.ofNat 8 (s.queue n).length]

/-! ### Requests -/

/-- The source and the whole payload of a request command, none for a command of another sort (R176, R179). -/
def asks : Instr → Option (Byte × List Byte)
  | .powerOn _ => none
  | .resetPinAssert => none
  | .resetPinRelease _ => none
  | .startDelimiter _ => none
  | .overlongFrame _ _ => none
  | .lineBreak _ => none
  | .linkDown _ => none
  | .frameEnd _ _ => none
  | .frameClassify _ _ => none
  | .sample _ _ => none
  | .silenceExpiry _ => none
  | .openTimerExpiry _ => none
  | .closeTimerExpiry _ => none
  | .fallTimerExpiry _ => none
  | .settleTimerExpiry _ => none
  | .gangTimerExpiry _ => none
  | .restartBoundExpiry => none
  | .dpSelection => none
  | .upSelection => none
  | .transmitEnd _ => none
  | .ident src body => some (src, 0x01 :: body)
  | .routeSet src body => some (src, 0x02 :: body)
  | .routeClear src body => some (src, 0x03 :: body)
  | .routeRead src body => some (src, 0x04 :: body)
  | .paramSet src body => some (src, 0x05 :: body)
  | .curveSet src body => some (src, 0x06 :: body)
  | .commit src body => some (src, 0x07 :: body)
  | .bankRead src body => some (src, 0x08 :: body)
  | .laneMode src body => some (src, 0x09 :: body)
  | .zeroCal src body => some (src, 0x0A :: body)
  | .orderPost src body => some (src, 0x0B :: body)
  | .orderCancel src body => some (src, 0x0C :: body)
  | .orderList src body => some (src, 0x0D :: body)
  | .laneRead src body => some (src, 0x0E :: body)
  | .recordTake src body => some (src, 0x0F :: body)
  | .scaleResult src body => some (src, 0x10 :: body)
  | .faultClear src body => some (src, 0x11 :: body)
  | .totalClear src body => some (src, 0x12 :: body)
  | .countersRead src body => some (src, 0x13 :: body)
  | .restart src body => some (src, 0x14 :: body)
  | .unknownRequest src payload => some (src, payload)

/-- The unit answers this request: it works, its reply queue has room (R177), and no request handed over before it
waits for the responder (R176, log 6). -/
def State.Answers (s : State) (src : Byte) (payload : List Byte) : Prop :=
  s.Working ∧ s.up.replies.length < 4 ∧ inTurn s.toResponder (src, payload) = true

/-- `s` when the owner decides a request of this source and payload: the controller address is set (R178) and the
request is no longer among those handed over (log 6). -/
def State.asked (s : State) (src : Byte) (payload : List Byte) : State :=
  { s with controller := src, toResponder := s.toResponder.erase (src, payload) }

/-- `s` with one more reply waiting (R177, R180). -/
def State.replying (s : State) (dest : Byte) (payload : List Byte) : State :=
  { s with up := { s.up with replies := s.up.replies ++ [{ dest, payload }] } }

end Sys2Proof.Machine
end

