-- ==== Sys2Proof/Certificates/Slice0/Obligations.lean ====
section
/-! DEFINITION. The statements for the provers. -/

open Sys2Proof Sys2Proof.Machine

/-! ### The step and the resets -/

/-- A step takes the command at the front of the queue and is that command's effect on the state with the rest of the
queue. The queue of commands is the model's form (log 1). -/
def Obligations.StepRunsTheFrontCommand : Prop :=
  ∀ (c : Instr) (rest : List Instr) (s : State),
    step { s with pending := c :: rest } = exec c { s with pending := rest }

/-- On an empty queue a millisecond of part time passes, and none while the reset pin is held: the model's choice
(log 2). -/
def Obligations.EmptyQueuePassesOneMillisecond : Prop :=
  ∀ s : State, s.pending = [] →
    (s.held = false → step s = .next { s with clock := s.clock + 1 }) ∧ (s.held = true → step s = .next s)

/-- Every command has a next state in every state, and no command touches the queue of commands. Both are the model's:
that none stops is read from the rules together (log 22), and the queue is its form of the outside world (log 1). -/
def Obligations.EveryCommandCompletesAndKeepsTheQueue : Prop :=
  ∀ (c : Instr) (s : State), ∃ t, exec c s = .next t ∧ t.pending = s.pending

/-- POWER_ON and RESET_PIN_RELEASE give every block its power-on value, whatever the state before, with the straps
read as given (R188 and the table of section 11.6); in both banks every parameter has its default, every curve the
count 0 and every breakpoint slot force 0, flow 0 (R46). The model's choices: the queue of commands stays (log 1), the
lists of what waits between two blocks are emptied (log 6), the release acts whether or not the pin is held (log 9),
and the GAP flag is clear (log 14). -/
def Obligations.PowerOnAndPinReleaseGivePowerOnValues : Prop :=
  ∀ (straps : BitVec 7) (s : State), ∃ t,
    exec (.powerOn straps) s = .next t ∧ exec (.resetPinRelease straps) s = .next t
      ∧ t.straps = straps ∧ t.held = false ∧ t.clock = 0 ∧ (∀ i, t.routeAt i = none)
      ∧ t.records = [] ∧ t.reservations = 0 ∧ t.controller = 0 ∧ t.restart = none
      ∧ t.unanswered = 0 ∧ t.wrongPort = 0 ∧ t.pending = s.pending
      ∧ t.toSwitch = [] ∧ t.toLanes = [] ∧ t.toResponder = []
      ∧ (∀ p : Port, (t.port p).receiver = .hunt ∧ (t.port p).linkUp = false
          ∧ (t.port p).counters = { checkErrors := 0, formErrors := 0, fragments := 0, forwardDrops := 0 })
      ∧ t.up.sending = none ∧ t.up.forward = [] ∧ t.up.replies = [] ∧ t.up.lastServed = .forward
      ∧ t.up.lastNote = .unit ∧ t.up.unitNote = false ∧ (∀ n, t.up.laneNotes.get n = false)
      ∧ t.dp.sending = none ∧ t.dp.forward = [] ∧ t.dp.urgent = [] ∧ t.dp.lastServed = .forward
      ∧ t.dp.lastLane = .lane3 ∧ (∀ n, t.dp.slots.get n = none)
      ∧ ∀ n : LaneId, t.queue n = []
        ∧ (t.lane n).cond = { prevTimestamp := none, history := [], lastFlags := none, lastGate := none }
        ∧ (t.lane n).counters = { samplesTaken := 0, duplicates := 0, gaps := 0, spikes := 0, formErrors := 0,
                                  screened := 0 }
        ∧ (t.lane n).zero = { tare := 0, tareRef := 0, holdAcc := 0, buildup := false }
        ∧ (t.lane n).cls = { pressureCand := .settled, flushRun := 0, calmRun := 0, candidate := .settled,
                             active := .settled, settleAcc := 0 }
        ∧ (t.lane n).flow.active.params = Params.default ∧ (t.lane n).flow.staged = (t.lane n).flow.active
        ∧ (List.range 28).map (t.lane n).flow.active.params.get =
            [8, 0, 50, 20, 40, 2000, 800, 150, 250, 6, 1500, 1000, 250, 600, 20, 500, 800, 50000, 4, 200000, 1500, 3, 4000,
             500, 100, 8, 50, 60000]
        ∧ (∀ r : Regime, (t.lane n).flow.active.curves.get r =
            { count := 0, slots := Vector.replicate 16 { force := 0, flow := 0 } })
        ∧ (t.lane n).flow.commitPending = false ∧ (t.lane n).flow.meterFactor = 10000
        ∧ (t.lane n).flow.flow = 0 ∧ (t.lane n).flow.overrange = false
        ∧ (t.lane n).integ = { grams := 0, residue := 0, manualTotal := 0, manualResidue := 0, manualFull := false }
        ∧ (t.lane n).seq.mode = .outOfService ∧ (t.lane n).seq.state = .idle
        ∧ (t.lane n).seq.holdCause = .none ∧ (t.lane n).seq.faultCause = .none
        ∧ (t.lane n).seq.silentMark = false ∧ (t.lane n).seq.liftMark = false ∧ (t.lane n).seq.gap = false
        ∧ (t.lane n).seq.wanted = none ∧ (t.lane n).seq.cutoff = none
        ∧ (t.lane n).seq.openRetries = 0 ∧ (t.lane n).seq.closeRetries = 0 ∧ (t.lane n).seq.quietRun = 0
        ∧ (t.lane n).seq.silenceTimer = some { start := 0, duration := 100 }
        ∧ (t.lane n).seq.openTimer = none ∧ (t.lane n).seq.closeTimer = none ∧ (t.lane n).seq.settleTimer = none
        ∧ (t.lane n).seq.fallTimer = none ∧ (t.lane n).seq.gangTimer = none
        ∧ (∀ r : Regime, (t.lane n).trims.get r = 0) ∧ (t.lane n).recon = none
        ∧ (t.lane n).resumeMark = false ∧ (t.lane n).screenedMark = false

/-- Asserting the reset pin stops a frame being sent on either port, and while the pin is held no command but POWER_ON
and the release changes anything (R188; which commands act is log 9). -/
def Obligations.HeldResetPinStopsTheUnit : Prop :=
  (∀ s : State, exec .resetPinAssert s =
      .next { s with held := true, up := { s.up with sending := none }, dp := { s.dp with sending := none } })
    ∧ ∀ (c : Instr) (s : State), s.held = true → (∀ straps, c ≠ .powerOn straps) →
        (∀ straps, c ≠ .resetPinRelease straps) → c ≠ .resetPinAssert → exec c s = .next s

/-! ### What every step keeps -/

/-- The queues stay within their depths and every counter within 32 bits, over every step (R16, R70, R138, R148, R162,
R177, R184). The DP urgent queue never comes to hold two entries for the same lane and kind, and so never more than 8
(R142). -/
def Obligations.QueueDepthsCountersAndUrgentEntriesKept : Prop :=
  (∀ s t : State, s.QueuesBounded ∧ s.CountersBounded → step s = .next t → t.QueuesBounded ∧ t.CountersBounded)
    ∧ ∀ s t : State, s.UrgentDistinct → step s = .next t → t.UrgentDistinct ∧ t.dp.urgent.length ≤ 8

/-- The tare of every lane stays within its drift band over every step (R19). -/
def Obligations.TareStaysInTheDriftBand : Prop :=
  ∀ s t : State, (∀ n, (s.lane n).TareInBand) → step s = .next t → ∀ n, (t.lane n).TareInBand

/-- Meter factor, corrected flow, residues, manual total and curve flows stay within their ranges over every step
(R45, R58, R62, R63, R65), and each trim within plus or minus the active bank's trim limit (R119). -/
def Obligations.MeteringAndTrimsStayInRange : Prop :=
  (∀ s t : State, (∀ n, (s.lane n).MeterInRange) → step s = .next t → ∀ n, (t.lane n).MeterInRange)
    ∧ ∀ s t : State, (∀ n, (s.lane n).TrimsInLimit) → step s = .next t → ∀ n, (t.lane n).TrimsInLimit

/-- The averaging history stays within the window and its range over every step (R6, R13), and candidate, pressure
candidate and active regime stay consistent (R33, R35, R38). -/
def Obligations.HistoryAndRegimesStayConsistent : Prop :=
  (∀ s t : State, (∀ n, (s.lane n).HistoryInWindow) → step s = .next t → ∀ n, (t.lane n).HistoryInWindow)
    ∧ ∀ s t : State, (∀ n, (s.lane n).RegimesConsistent) → step s = .next t → ∀ n, (t.lane n).RegimesConsistent

/-- Every parameter of both banks stays within its range, the coupled pairs included, over every step (R46, R50). -/
def Obligations.ParametersStayInRange : Prop :=
  ∀ s t : State, (∀ n, (s.lane n).BanksInRange) → step s = .next t → ∀ n, (t.lane n).BanksInRange

/-- The route table keeps its constraints over every step (R151). -/
def Obligations.RouteTableStaysConsistent : Prop :=
  ∀ s t : State, s.RoutesSound → step s = .next t → t.RoutesSound

/-- A lane in MANUAL or AUTO keeps its head routed and its active curves valid over every step (R47, R151). -/
def Obligations.LanesInServiceStayRoutedAndCalibrated : Prop :=
  ∀ s t : State, s.InServiceSound → step s = .next t → t.InServiceSound

/-- Active orders and reservations match the lane states, and records held plus reservations never exceed 24, over every
step (R70, R96, R163). -/
def Obligations.ReservationsMatchTheLanes : Prop :=
  ∀ s t : State, s.StoreSound → step s = .next t → t.StoreSound

/-- Hold cause and fault cause stay those of the lane's state over every step (R93, R97, R110, R111). -/
def Obligations.CausesMatchTheLaneState : Prop :=
  ∀ s t : State, (∀ n, (s.lane n).CausesMatch) → step s = .next t → ∀ n, (t.lane n).CausesMatch

/-- A unit in transparent mode stays quiet over every step (R147), and no position slot holds a command between the
acceptance of a forced RESTART and its completion (R116, R141). -/
def Obligations.TransparentAndDrainingUnitsStayQuiet : Prop :=
  (∀ s t : State, s.TransparentQuiet → step s = .next t → t.TransparentQuiet)
    ∧ ∀ s t : State, s.DrainWithoutPositions → step s = .next t → t.DrainWithoutPositions

/-- Every property that the statements above show to be kept holds after a reset, whatever the straps. -/
def Obligations.ResetMeetsEveryKeptProperty : Prop :=
  ∀ (straps : BitVec 7) (pending : List Instr), ∀ s, s = State.powerOn straps pending ∨ s = State.reset →
    (s.QueuesBounded ∧ s.CountersBounded) ∧ s.UrgentDistinct
      ∧ (∀ n, (s.lane n).TareInBand ∧ (s.lane n).MeterInRange ∧ (s.lane n).TrimsInLimit
          ∧ (s.lane n).HistoryInWindow ∧ (s.lane n).RegimesConsistent ∧ (s.lane n).BanksInRange
          ∧ (s.lane n).CausesMatch)
      ∧ s.RoutesSound ∧ s.InServiceSound ∧ s.StoreSound ∧ s.TransparentQuiet ∧ s.DrainWithoutPositions

/-! ### The receive lines -/

/-- A start delimiter opens an empty frame, makes a frame under way a fragment, and returns a port in DOWN to UP with
the unit's note slot made pending (R134, R137). A port in UP whose line is quiet goes to DOWN with the unit's note
slot made pending; a port in DOWN stays as it is (R137). Nothing else changes. -/
def Obligations.StartDelimiterAndQuietLineMoveThePort : Prop :=
  ∀ (s : State) (p : Port), s.held = false →
    (let c := s.port p
     let t := s.putPort p
       { receiver := .inFrame [], linkUp := true,
         counters := if c.receiver = .hunt then c.counters
                     else { c.counters with fragments := raised c.counters.fragments } }
     exec (.startDelimiter p) s =
       .next { t with up := { t.up with unitNote := s.up.unitNote || !c.linkUp } })
      ∧ ((s.port p).linkUp = false → exec (.linkDown p) s = .next s)
      ∧ ((s.port p).linkUp = true →
          let t := s.putPort p { s.port p with linkUp := false }
          exec (.linkDown p) s = .next { t with up := { t.up with unitNote := true } })

/-- Data bytes are appended to a frame's buffer up to 54; a further byte makes the frame overlong, which drops it,
counts a form error and returns the receiver to HUNT; in HUNT bytes are ignored (R134). That OVERLONG_FRAME carries
the bytes, and that one whose bytes still fit stays IN_FRAME with them, is the model's choice (log 5). -/
def Obligations.OverlongFrameIsDroppedAndCounted : Prop :=
  ∀ (s : State) (p : Port) (data : List Byte), s.held = false →
    ((s.port p).receiver = .hunt → exec (.overlongFrame p data) s = .next s)
      ∧ ∀ buffer : List Byte, (s.port p).receiver = .inFrame buffer → buffer.length ≤ 54 →
        let c := s.port p
        (buffer.length + data.length ≤ 54 →
            exec (.overlongFrame p data) s =
              .next (s.putPort p { c with receiver := .inFrame (buffer ++ data) }))
          ∧ (54 < buffer.length + data.length →
            exec (.overlongFrame p data) s =
              .next (s.putPort p { c with
                receiver := .hunt, counters := { c.counters with formErrors := raised c.counters.formErrors } }))

/-- A line break inside a frame drops the bytes gathered, counts a fragment and returns the receiver to HUNT; in HUNT it
does nothing (R135). -/
def Obligations.LineBreakMakesAFragment : Prop :=
  ∀ (s : State) (p : Port), s.held = false →
    ((s.port p).receiver = .hunt → exec (.lineBreak p) s = .next s)
      ∧ ∀ buffer : List Byte, (s.port p).receiver = .inFrame buffer →
        let c := s.port p
        exec (.lineBreak p) s =
          .next (s.putPort p { c with
            receiver := .hunt, counters := { c.counters with fragments := raised c.counters.fragments } })

/-- The receiver's checks at an end delimiter, in their order: a frame that fails is discarded and counted once, a
good frame is handed to the switch; the receiver returns to HUNT (R136). Bytes that overflow the buffer make the frame
overlong before its end, and an end delimiter in HUNT does nothing (R134). That FRAME_END carries the bytes still to
come is log 5, that a good frame waits in toSwitch log 6, how the check word is computed log 10: the model's. -/
def Obligations.FrameEndChecksTheBuffer : Prop :=
  ∀ (s : State) (p : Port) (data : List Byte), s.held = false →
    ((s.port p).receiver = .hunt → exec (.frameEnd p data) s = .next s)
      ∧ ∀ buffer : List Byte, (s.port p).receiver = .inFrame buffer → buffer.length ≤ 54 →
        let bytes := buffer ++ data
        let dest := bytes.getD 0 0
        let src := bytes.getD 1 0
        let len := (bytes.getD 3 0).toNat
        let check : BitVec 16 := bytes.getD (bytes.length - 2) 0 ++ bytes.getD (bytes.length - 1) 0
        let c := (s.port p).counters
        let closed := fun (c' : PortCounters) => s.putPort p { s.port p with receiver := .hunt, counters := c' }
        exec (.frameEnd p data) s = .next
          (if 54 < bytes.length then closed { c with formErrors := raised c.formErrors }
           else if bytes.length < 6 then closed { c with formErrors := raised c.formErrors }
           else if 48 < len ∨ len ≠ bytes.length - 6 then closed { c with formErrors := raised c.formErrors }
           else if dest.toNat = 0 ∨ 127 < dest.toNat ∨ src.toNat = 0 ∨ 126 < src.toNat then
             closed { c with formErrors := raised c.formErrors }
           else if checkWord (bytes.take (bytes.length - 2)) ≠ check then
             closed { c with checkErrors := raised c.checkErrors }
           else
             { closed c with
               toSwitch := s.toSwitch ++ [(p, { dest, src, kind := bytes.getD 2 0,
                                                payload := (bytes.drop 4).take (bytes.length - 6), check })] })

/-! ### The frame switch -/

/-- In transparent mode every good frame goes unchanged to the forward queue of the opposite port, or is dropped and
counted where that queue holds 8 (R138, R147). That a frame waits for the switch, and is the next of its port, is the
model's form (log 6). -/
def Obligations.TransparentModeForwardsEveryFrame : Prop :=
  ∀ (s : State) (f : Frame), s.held = false → s.transparent = true →
    (inTurn (s.waitingAt .up) (.up, f) = true →
      let t := { s with toSwitch := s.toSwitch.erase (.up, f) }
      exec (.frameClassify .up f) s = .next
        (if s.dp.forward.length < 8 then { t with dp := { s.dp with forward := s.dp.forward ++ [f] } }
         else { t with dp := { s.dp with common := { s.dp.common with counters := { s.dp.common.counters with
             forwardDrops := raised s.dp.common.counters.forwardDrops } } } }))
      ∧ (inTurn (s.waitingAt .dp) (.dp, f) = true →
        let t := { s with toSwitch := s.toSwitch.erase (.dp, f) }
        exec (.frameClassify .dp f) s = .next
          (if s.up.forward.length < 8 then { t with up := { s.up with forward := s.up.forward ++ [f] } }
           else { t with up := { s.up with common := { s.up.common with counters := { s.up.common.counters with
               forwardDrops := raised s.up.common.counters.forwardDrops } } } }))

/-- A good frame received on UP by the first matching line: a request for the unit goes to the responder, any other
frame for the unit is discarded, a GATE frame to a routed head outside AUTO and every other frame is placed in the
downstream forward queue (R156, R160). That frames wait for the switch and a request for the responder, each port's
frames and the requests in their order, and that a frame out of its turn changes nothing, is the model's form (log 6).
-/
def Obligations.UpFramesAreClassified : Prop :=
  ∀ (s : State) (f : Frame), s.Working →
    let t := { s with toSwitch := s.toSwitch.erase (.up, f) }
    (inTurn (s.waitingAt .up) (.up, f) = false → exec (.frameClassify .up f) s = .next s)
      ∧ (inTurn (s.waitingAt .up) (.up, f) = true →
        (f.dest = s.address → f.kind = 0x40 →
            exec (.frameClassify .up f) s = .next { t with toResponder := s.toResponder ++ [(f.src, f.payload)] })
          ∧ (f.dest = s.address → f.kind ≠ 0x40 → exec (.frameClassify .up f) s = .next t)
          ∧ (f.dest ≠ s.address → f.kind ≠ 0x32 ∨ s.headLane f.dest = none →
              exec (.frameClassify .up f) s = .next (t.forwardDown f))
          ∧ (f.dest ≠ s.address → f.kind = 0x32 → ∀ n, s.headLane f.dest = some n → (s.lane n).seq.mode ≠ .auto →
              exec (.frameClassify .up f) s = .next (t.forwardDown f)))

/-- A good frame received on DP by the first matching line: a routed measurement goes to its lane or, malformed,
upward with a lane form error; a request for the unit is discarded and counted; any other frame for the unit is
discarded; the rest goes upward (R1, R157). That frames wait for the switch and a measurement for its lane, in
toLanes, and that a frame out of its turn changes nothing, is the model's form (log 6). -/
def Obligations.DpFramesAreClassified : Prop :=
  ∀ (s : State) (f : Frame), s.Working →
    let t := { s with toSwitch := s.toSwitch.erase (.dp, f) }
    (inTurn (s.waitingAt .dp) (.dp, f) = false → exec (.frameClassify .dp f) s = .next s)
      ∧ (inTurn (s.waitingAt .dp) (.dp, f) = true →
        (∀ n, f.kind = 0x21 → s.headLane f.src = some n →
            (f.payload.length = 10 →
                exec (.frameClassify .dp f) s = .next { t with toLanes := s.toLanes ++ [(n, f)] })
              ∧ (f.payload.length ≠ 10 →
                exec (.frameClassify .dp f) s = .next
                  ({ t with lanes := s.lanes.set n { s.lane n with counters := { (s.lane n).counters with
                      formErrors := raised (s.lane n).counters.formErrors } } }.forwardUp f)))
          ∧ (f.kind ≠ 0x21 ∨ s.headLane f.src = none →
              (f.dest = s.address → f.kind = 0x40 →
                  exec (.frameClassify .dp f) s = .next { t with wrongPort := raised s.wrongPort })
                ∧ (f.dest = s.address → f.kind ≠ 0x40 → exec (.frameClassify .dp f) s = .next t)
                ∧ (f.dest ≠ s.address → exec (.frameClassify .dp f) s = .next (t.forwardUp f))))

/-- A GATE frame to the head of a lane in AUTO that is no closing command is dropped: the lane's screened counter rises,
its screened mark is set and its note slot becomes pending, and nothing else changes (R159, R160, R162). -/
def Obligations.AutoLaneBlocksOpeningCommands : Prop :=
  ∀ (s : State) (f : Frame) (n : LaneId), s.Working → inTurn (s.waitingAt .up) (.up, f) = true →
    f.dest ≠ s.address → f.kind = 0x32 → s.headLane f.dest = some n → (s.lane n).seq.mode = .auto →
    (¬∃ hi lo : Byte, f.payload = [2, hi, lo]
        ∨ (f.payload = [1, hi, lo] ∧ rd16 hi lo ≤ (s.lane n).params.closedBand)) →
    exec (.frameClassify .up f) s = .next
      { s with
        toSwitch := s.toSwitch.erase (.up, f)
        lanes := s.lanes.set n { s.lane n with
          counters := { (s.lane n).counters with screened := raised (s.lane n).counters.screened }
          screenedMark := true }
        up := { s.up with laneNotes := s.up.laneNotes.set n true } }

/-- A closing command to the head of a lane in AUTO is forwarded; in FILLING or TRICKLE it is also an operator stop: a
cut-off with cause OPERATOR, with CLOSE for the station routed as the lane's head in the urgent queue, where none of
that lane and kind stands there, and the position slot emptied (R102, R114, R140, R159 to R161). -/
def Obligations.ClosingCommandIsForwardedAndStopsAFillingLane : Prop :=
  ∀ (s : State) (f : Frame) (n : LaneId) (hi lo : Byte), s.Working → inTurn (s.waitingAt .up) (.up, f) = true →
    f.dest ≠ s.address → f.kind = 0x32 → s.headLane f.dest = some n → (s.lane n).seq.mode = .auto →
    (f.payload = [2, hi, lo] ∨ (f.payload = [1, hi, lo] ∧ rd16 hi lo ≤ (s.lane n).params.closedBand)) →
    let t := { s with toSwitch := s.toSwitch.erase (.up, f) }
    ((s.lane n).seq.state ≠ .filling → (s.lane n).seq.state ≠ .trickle →
        exec (.frameClassify .up f) s = .next (t.forwardDown f))
      ∧ ((s.lane n).seq.state = .filling ∨ (s.lane n).seq.state = .trickle →
        ∃ urgent, s.ClosesPlaced [(n, .headClose)] urgent
          ∧ exec (.frameClassify .up f) s = .next ((t.cutTo n .operator urgent).forwardDown f))

/-! ### Samples -/

/-- A sample of a lane in OUT_OF_SERVICE restarts the silence timer, clears a silent mark with a note, copies the head
flags and gate position, sets the lift mark where BELLOWS_DOWN is clear, and its frame goes upward annotated with what
the lane held; nothing else changes (R3, R4, R18, R139). That it waits for its lane in toLanes is
log 6, that its route is not read is log 28. -/
def Obligations.OutOfServiceSampleOnlyKeepsContact : Prop :=
  ∀ (s : State) (n : LaneId) (f : Frame) (m : Meas), s.Hears n f m →
    (s.lane n).seq.mode = .outOfService →
    let l := s.lane n
    let kept : Lane := { l with
      cond := { l.cond with lastFlags := some m.flags.kept, lastGate := some m.gate }
      seq := { l.seq with
        silenceTimer := some { start := s.clock, duration := l.params.silenceTime }
        silentMark := false
        liftMark := l.seq.liftMark || !m.flags.bellowsDown }
      resumeMark := false }
    exec (.sample n f) s = .next
      ({ s with
        toLanes := s.toLanes.erase (n, f)
        lanes := s.lanes.set n kept
        up := { s.up with laneNotes :=
          if l.seq.silentMark then s.up.laneNotes.set n true else s.up.laneNotes } }.forwardUp
        (makeFrame f.dest f.src f.kind
          (f.payload ++ trailerOf .idle l.resumeMark l.cls.active l.flow.flow l.integ.grams)))

/-- A sample in service whose timestamp repeats the previous one is discarded: it restarts the silence timer and counts
as a duplicate, and its frame goes upward annotated with what the lane held; nothing else changes (R3, R9, R18). That it
waits for its lane in toLanes is log 6, that its route is not read is log 28. -/
def Obligations.DuplicateSampleIsDiscarded : Prop :=
  ∀ (s : State) (n : LaneId) (f : Frame) (m : Meas), s.Hears n f m →
    (s.lane n).seq.mode ≠ .outOfService → (s.lane n).cond.prevTimestamp = some m.timestamp →
    let l := s.lane n
    let kept : Lane := { l with
      counters := { l.counters with duplicates := raised l.counters.duplicates }
      seq := { l.seq with
        silenceTimer := some { start := s.clock, duration := l.params.silenceTime }
        silentMark := false }
      resumeMark := false }
    let grams := if l.seq.mode = .manual then l.integ.manualTotal else l.integ.grams
    let state := if l.seq.mode = .manual then LaneState.idle else l.seq.state
    exec (.sample n f) s = .next
      ({ s with
        toLanes := s.toLanes.erase (n, f)
        lanes := s.lanes.set n kept
        up := { s.up with laneNotes :=
          if l.seq.silentMark then s.up.laneNotes.set n true else s.up.laneNotes } }.forwardUp
        (makeFrame f.dest f.src f.kind
          (f.payload ++ trailerOf state l.resumeMark l.cls.active l.flow.flow grams)))

/-- A sample of a lane in MANUAL that is no duplicate, a first sample among them, goes through stages 1 to 4: net force,
limiter and history (R11 to R13), the interval (R7, R8, R10), the zero tracker with its hold, tare step and BUILDUP
(R20 to R23), the classifier's steps (R32 to R39), the curve flow with its interpolation and OVERRANGE (R60 to R62), and
the manual total (R63, R65). BUILDUP newly set, a change of active regime and the end of a silent mark make the note
pending; the frame goes upward annotated; no gate command, order, record or mode changes (R41, R87, R139). What stages 1
to 4 do is spelled out in Lane.Handled; that a measurement waits for its lane in toLanes is log 6, that its
route is not read is log 28. -/
def Obligations.ManualSampleIsMetered : Prop :=
  ∀ (s : State) (n : LaneId) (f : Frame) (m : Meas), s.Hears n f m → (s.lane n).seq.mode = .manual →
    (s.lane n).cond.prevTimestamp ≠ some m.timestamp →
    ∃ l', (s.lane n).Handled s.clock m l' ∧ exec (.sample n f) s = .next ((s.atStage5 n f l').trailed n f)

/-- A sample of a lane in FILLING or TRICKLE, not a duplicate, goes through stages 1 to 4 (Lane.Handled: grams,
residue, flow and OVERRANGE by R60 to R63); a gate above the closed band stops the open timer (R98). Then the first
test that is due decides: HEAD_FAULT ends the order FAULTED with both closes, the level probe, the lost permit and the
preact cut off, the trickle test moves the lane to TRICKLE; otherwise it stays, and a change of regime in FILLING into
or out of FLUSHING places the position of R40 (R67, R68, R99 to R103, R108, R110, R114). That a measurement waits in
toLanes is log 6, that its route is not read is log 28. -/
def Obligations.PouringSampleIsDecidedInOrder : Prop :=
  ∀ (s : State) (n : LaneId) (f : Frame) (m : Meas) (o : Order), s.Hears n f m →
    (s.lane n).seq.mode = .auto → (s.lane n).seq.state = .filling ∨ (s.lane n).seq.state = .trickle →
    (s.lane n).cond.prevTimestamp ≠ some m.timestamp → s.activeOrder n = some o →
    ∃ l' t, (s.lane n).Handled s.clock m l' ∧ exec (.sample n f) s = .next (t.trailed n f) ∧
      let l := s.lane n
      let p := l.params
      let seq := { l'.seq with openTimer := if p.closedBand < m.gate then none else l.seq.openTimer }
      let a := s.atStage5 n f { l' with seq }
      let preact : Int := max 0 (((l'.flow.flow * p.fallTime / 1000 : Nat) : Int) + l.trims.get l'.cls.active)
      let target := o.targets.getD (o.compartment - 1) 0 * 1000
      let cut := fun (cause : CutCause) =>
        ∃ urgent, s.ClosesPlaced [(n, .headClose)] urgent ∧ t = a.cutTo n cause urgent
      if m.flags.headFault then
        ∃ urgent, s.ClosesPlaced [(n, .headClose), (n, .isolationClose)] urgent
          ∧ t = a.faulted n o .headFault [l'.resultFrom o (l'.cutoffNow .fault) false false] urgent
      else if m.flags.levelProbe then cut .levelProbe
      else if m.flags.bellowsDown = false then cut .permitLost
      else if (target : Int) ≤ l'.integ.grams + preact then cut .preact
      else if l.seq.state = .filling ∧ o.noTrickle = false ∧ target - p.trickleBand * 1000 ≤ l'.integ.grams then
        t = (a.moved n { seq with state := .trickle }).commanding n p.tricklePosition
      else if l.seq.state = .filling ∧ l'.cls.active ≠ l.cls.active ∧ l'.cls.active = .flushing then
        t = a.commanding n (min p.flushPosition p.fillPosition)
      else if l.seq.state = .filling ∧ l'.cls.active ≠ l.cls.active ∧ l.cls.active = .flushing then
        t = a.commanding n p.fillPosition
      else t = a

/-- A sample, not a duplicate, of a lane in AUTO outside FILLING and TRICKLE goes through stages 1 to 4 (Lane.Handled)
and is decided by the lane's state. IDLE takes up the head of the queue (R73). ARMED tests the six preconditions: the
first that fails holds it; else a slot is reserved and it enters FILLING, or GANG_WAIT with its gang timer started,
and the join that brings the waiting count to the gang's size takes every member into FILLING of compartment 1 with
its timer stopped (R80, R81, R95 to R97, R164). GANG_WAIT drops out on a failure (R82). CUTOFF confirms the close
(R104). SETTLING counts its quiet run and ends on it (R106, R107). INDEXING enters the next compartment (R109). FAULT
stays. That a measurement waits in toLanes is log 6, that its route is not read is log 28. -/
def Obligations.ArmedSampleTestsThePreconditions : Prop :=
  ∀ (s : State) (n : LaneId) (f : Frame) (m : Meas), s.Hears n f m → (s.lane n).seq.mode = .auto →
    (s.lane n).seq.state ≠ .filling → (s.lane n).seq.state ≠ .trickle →
    (s.lane n).cond.prevTimestamp ≠ some m.timestamp →
    ∃ l' t, (s.lane n).Handled s.clock m l' ∧ exec (.sample n f) s = .next (t.trailed n f) ∧
      let l := s.lane n
      let p := l.params
      let a := s.atStage5 n f l'
      match l.seq.state with
      | .idle => a.TakesUp t n
      | .armed => ∀ o, s.activeOrder n = some o → a.Tests t n o
      | .gangWait => ∀ o, s.activeOrder n = some o → t = (l'.failing.head?).elim a fun h => a.droppedOut n o h
      | .filling => True
      | .trickle => True
      | .cutoff =>
        t = if m.gate ≤ p.closedBand then
            a.moved n { l'.seq with
              state := .settling
              closeTimer := none
              settleTimer := some { start := s.clock, duration := p.settleTime }
              fallTimer := if p.fallTime = 0 then none else some { start := s.clock, duration := p.fallTime }
              quietRun := 0 }
          else a
      | .settling => ∀ o d, s.activeOrder n = some o → l.seq.cutoff = some d →
        let quiet := if l.seq.fallTimer ≠ none then 0 else if l'.flow.flow ≤ p.settleFlow then l.seq.quietRun + 1 else 0
        let b := s.atStage5 n f { l' with seq := { l'.seq with quietRun := quiet } }
        if p.window ≤ quiet then b.SettlingEnds t n o d else t = b
      | .indexing => ∀ o, s.activeOrder n = some o →
        match l'.failing with
        | [] => a.Opens t [n] (o.compartment + 1)
        | h :: _ => t = a.holding n h
      | .fault => t = a

/-- A sample touches its own lane, the record store and reservations, its lane's note, its frame's way upward and the
gate commands. Another lane is touched only where it waits in the gang of the order that the sample's lane may bring to
its gang by this sample: the head of its queue in IDLE and ARMED, the order behind it in SETTLING. Every other lane,
one that waits in another gang among them, and what belongs to the unit as a whole stays (R5, R81, R82, R85). A routed
measurement that is not the next in the order of classification is not handled yet and changes nothing (R158; that such
a command may stand in the queue is log 6). -/
def Obligations.SampleLeavesOtherLanesAndTheUnitAlone : Prop :=
  ∀ (s t : State) (n : LaneId) (f : Frame), exec (.sample n f) s = .next t →
    (∀ m, m ≠ n → ¬(∃ o, s.joining n = some o ∧ o.gangTag ≠ 0 ∧ s.Waits o.gangTag m) →
        t.lane m = s.lane m ∧ t.queue m = s.queue m ∧ t.dp.slots.get m = s.dp.slots.get m
          ∧ t.up.laneNotes.get m = s.up.laneNotes.get m)
      ∧ t.straps = s.straps ∧ t.held = s.held ∧ t.clock = s.clock ∧ t.routes = s.routes
      ∧ t.controller = s.controller ∧ t.restart = s.restart ∧ t.unanswered = s.unanswered
      ∧ t.wrongPort = s.wrongPort ∧ t.toSwitch = s.toSwitch ∧ t.toResponder = s.toResponder
      ∧ t.up.replies = s.up.replies ∧ t.up.sending = s.up.sending ∧ t.up.unitNote = s.up.unitNote
      ∧ t.up.lastServed = s.up.lastServed ∧ t.up.lastNote = s.up.lastNote
      ∧ t.dp.forward = s.dp.forward ∧ t.dp.sending = s.dp.sending ∧ t.dp.common = s.dp.common
      ∧ t.dp.lastServed = s.dp.lastServed ∧ t.dp.lastLane = s.dp.lastLane
      ∧ (inTurn s.toLanes (n, f) = false → t = s)

/-! ### Timer expiries -/

/-- A silence expiry marks the lane silent, stops the timer, clears history, first-sample state, runs and accumulators
and Q, sets the resume mark and the note, and takes a lane in AUTO on by its state: ARMED holds HEAD_SILENT, GANG_WAIT
drops out to it and returns its reservation, FILLING, TRICKLE and CUTOFF fault with both closes, SETTLING and INDEXING
fault without. A fault ends the order FAULTED with its record: the compartment cut with cause FAULT, or, in SETTLING,
with its cut-off data's cause and SETTLE_CUT (R82, R91, R92, R108, R110, R114). Nothing else changes but the time,
which is at the timer's end (log 3). -/
def Obligations.SilenceExpiryMarksTheLane : Prop :=
  ∀ (s : State) (n : LaneId) (timer : Timer), s.held = false → (s.lane n).seq.silenceTimer = some timer →
    ∃ t, exec (.silenceExpiry n) s = .next t ∧
      let l := s.lane n
      let l' : Lane := { l with
        cond := { l.cond with history := [], prevTimestamp := none }
        zero := { l.zero with holdAcc := 0 }
        cls := { l.cls with flushRun := 0, calmRun := 0, settleAcc := 0 }
        flow := { l.flow with flow := 0 }
        seq := { l.seq with silentMark := true, silenceTimer := none }
        resumeMark := true }
      let a := { s with
        clock := s.timeAt timer
        lanes := s.lanes.set n l'
        up := { s.up with laneNotes := s.up.laneNotes.set n true } }
      let faults := fun (closes : List (LaneId × UrgentKind)) (results : Order → List CompResult) =>
        ∀ o, s.activeOrder n = some o →
          ∃ urgent, s.ClosesPlaced closes urgent ∧ t = a.faulted n o .headSilent (results o) urgent
      let both : List (LaneId × UrgentKind) := [(n, .headClose), (n, .isolationClose)]
      if l.seq.mode = .auto then
        match l.seq.state with
        | .idle => t = a
        | .fault => t = a
        | .armed => t = a.holding n .headSilent
        | .gangWait => ∀ o, s.activeOrder n = some o → t = a.droppedOut n o .headSilent
        | .filling => faults both fun o => [l'.resultFrom o (l'.cutoffNow .fault) false false]
        | .trickle => faults both fun o => [l'.resultFrom o (l'.cutoffNow .fault) false false]
        | .cutoff => ∀ d, l.seq.cutoff = some d →
          faults both fun o => [l'.resultFrom o { d with cause := .fault } false false]
        | .settling => ∀ d, l.seq.cutoff = some d → faults [] fun o => [l'.resultFrom o d true false]
        | .indexing => faults [] fun _ => []
      else t = a

/-- An open timer expiry in FILLING or TRICKLE places the wanted position again, counts a retry and restarts the timer;
with the retries spent it takes the lane to FAULT with GATE_STUCK and CLOSE for the head, and no isolation command: the
order ends FAULTED, its compartment with the grams and regime as they stand (R98, R108, R110, R114). The time is at the
timer's end (log 3). -/
def Obligations.OpenTimerExpiryRetriesOrFaults : Prop :=
  ∀ (s : State) (n : LaneId) (timer : Timer), s.held = false → (s.lane n).seq.openTimer = some timer →
    (s.lane n).seq.mode = .auto → (s.lane n).seq.state = .filling ∨ (s.lane n).seq.state = .trickle →
      let l := s.lane n
      let now := s.timeAt timer
      (l.seq.openRetries < l.params.gateRetries →
          exec (.openTimerExpiry n) s = .next { s with
            clock := now
            lanes := s.lanes.set n { l with seq := { l.seq with
              openRetries := l.seq.openRetries + 1
              openTimer := some { start := now, duration := l.params.confirmTime } } }
            dp := { s.dp with slots := s.dp.slots.set n (l.seq.wanted.elim (s.dp.slots.get n) (s.slotAfter n)) } })
        ∧ (l.params.gateRetries ≤ l.seq.openRetries → ∀ o, s.activeOrder n = some o →
          ∃ urgent, s.ClosesPlaced [(n, .headClose)] urgent
            ∧ exec (.openTimerExpiry n) s = .next ({ s with clock := now }.faulted n o .gateStuck
                [l.resultFrom o (l.cutoffNow .fault) false false] urgent))

/-- A close timer expiry in CUTOFF places CLOSE for the head again, unless one stands in the urgent queue, counts a
retry and restarts the timer; with the retries spent it takes the lane to FAULT with RUNAWAY, with an isolation CLOSE
where one is routed: the order ends FAULTED, its compartment with the cut-off figures and the grams as they stand
(R105, R108, R110, R114). The time is at the timer's end (log 3). -/
def Obligations.CloseTimerExpiryRetriesOrFaults : Prop :=
  ∀ (s : State) (n : LaneId) (timer : Timer), s.held = false → (s.lane n).seq.closeTimer = some timer →
    (s.lane n).seq.mode = .auto → (s.lane n).seq.state = .cutoff →
      let l := s.lane n
      let now := s.timeAt timer
      (l.seq.closeRetries < l.params.gateRetries →
          ∃ urgent, s.ClosesPlaced [(n, .headClose)] urgent
            ∧ exec (.closeTimerExpiry n) s = .next { s with
                clock := now
                lanes := s.lanes.set n { l with seq := { l.seq with
                  closeRetries := l.seq.closeRetries + 1
                  closeTimer := some { start := now, duration := l.params.confirmTime } } }
                dp := { s.dp with urgent } })
        ∧ (l.params.gateRetries ≤ l.seq.closeRetries → ∀ o d, s.activeOrder n = some o → l.seq.cutoff = some d →
          ∃ urgent, s.ClosesPlaced [(n, .isolationClose)] urgent
            ∧ exec (.closeTimerExpiry n) s = .next ({ s with clock := now }.faulted n o .runaway
                [l.resultFrom o { d with cause := .fault } false false] urgent))

/-- A fall timer expiry stops the fall timer and changes nothing else; counting begins with the next sample (R106). A
gang timer expiry in GANG_WAIT ends the active order with a GANG_TIMEOUT record, its reservation consumed, and the
lane enters IDLE, where a pending bank is applied and the next order taken up (R83, R93). The time is at the timer's
end (log 3). -/
def Obligations.FallAndGangTimerExpiries : Prop :=
  (∀ (s : State) (n : LaneId) (timer : Timer), s.held = false → (s.lane n).seq.fallTimer = some timer →
      exec (.fallTimerExpiry n) s = .next { s with
        clock := s.timeAt timer
        lanes := s.lanes.set n { s.lane n with seq := { (s.lane n).seq with fallTimer := none } } })
    ∧ ∀ (s : State) (n : LaneId) (timer : Timer) (o : Order), s.held = false →
      (s.lane n).seq.gangTimer = some timer → (s.lane n).seq.mode = .auto → (s.lane n).seq.state = .gangWait →
      s.activeOrder n = some o →
      ∃ t, exec (.gangTimerExpiry n) s = .next t
        ∧ ({ s with
            clock := s.timeAt timer
            lanes := s.lanes.set n { s.lane n with seq := { (s.lane n).seq with gangTimer := none } } }.ended n o
              .gangTimeout none).EntersIdle t n

/-- A settle timer expiry in SETTLING ends the settling: the compartment result is formed from the cut-off data and
the grams, marked LEARNED and its trim moved just where it qualifies, whatever the way on, and appended; the order
ends CANCELLED, STOPPED or INTERRUPTED, or the lane goes on to INDEXING, or the order ends COMPLETE and writes the
reconciliation entry. An order that ends leaves its record, consumes its reservation and lets the lane enter IDLE,
where a pending bank is applied and the next order taken up (R93, R106 to R109, R122, R123, R125, R165;
State.SettlingEnds spells it out). The time is at the timer's end (log 3). -/
def Obligations.SettleTimerExpiryEndsSettling : Prop :=
  ∀ (s : State) (n : LaneId) (timer : Timer) (o : Order) (d : CutoffData), s.held = false →
    (s.lane n).seq.settleTimer = some timer → (s.lane n).seq.mode = .auto → (s.lane n).seq.state = .settling →
    s.activeOrder n = some o → (s.lane n).seq.cutoff = some d →
    ∃ t, exec (.settleTimerExpiry n) s = .next t ∧ { s with clock := s.timeAt timer }.SettlingEnds t n o d

/-! ### The completion of a restart -/

/-- A forced restart completes by its bound, and by transmission when the last urgent entry has been sent: orders,
records, reservations, reconciliation entries, queues and counters are emptied, modes, routes, active banks, trims,
tares, meter factors and manual totals are kept, and the reply is the reply queue's one entry (R117, R149, R186, R187;
State.Restarted spells it out). The model's choices: which entries count as discarded (log 15), that the controller
address stays that of the request answered last (log 25), that the time is at the bound's end (log 3), that the GAP
flag is cleared (log 14), and that the lists of what waits between two blocks stay (log 6). -/
def Obligations.RestartCompletesByBoundOrByTransmission : Prop :=
  ∀ (s : State) (r : RestartRecord), s.held = false → s.restart = some r →
    let reply := fun (completion discarded : Byte) =>
      ({ dest := r.src
         payload := [0x14, r.tagHi, r.tagLo, 0, BitVec.ofNat 8 r.force, completion, discarded] ++ s.lanesReport } : Reply)
    (∃ t, exec .restartBoundExpiry s = .next t
        ∧ { s with clock := s.timeAt r.bound }.Restarted t
            (reply 3 (BitVec.ofNat 8 (s.dp.urgent.filter fun (e : UrgentEntry) => !e.sending).length)))
      ∧ ∀ (f : Frame) (e : UrgentEntry), s.dp.sending = some f → s.dp.urgent = [e] → e.sending = true →
        ∃ t, exec (.transmitEnd .dp) s = .next t
          ∧ { s with dp := { s.dp with sending := none } }.Restarted t (reply 2 0)

/-! ### The transmitters -/

/-- A selection by the idle DP transmitter: the oldest urgent entry not yet sent, which stays in its queue and leaves
the arbiter's records alone; else the class not served last, slots in lane order after the lane last served, or the
forward queue; else nothing (R140, R144). -/
def Obligations.DpSelectionServesUrgentFirst : Prop :=
  ∀ s : State, s.held = false → s.dp.sending = none →
    (∀ (pre post : List UrgentEntry) (e : UrgentEntry), s.dp.urgent = pre ++ e :: post →
        (∀ x ∈ pre, x.sending = true) → e.sending = false →
        exec .dpSelection s = .next { s with dp := { s.dp with
          sending := some (makeFrame e.dest s.address 0x32 [2, 0, 0])
          urgent := pre ++ { e with sending := true } :: post } })
      ∧ ((∀ x ∈ s.dp.urgent, x.sending = true) →
        (∀ (pre post : List LaneId) (n : LaneId) (c : SlotCommand), lanesAfter s.dp.lastLane = pre ++ n :: post →
            (∀ m ∈ pre, s.dp.slots.get m = none) → s.dp.slots.get n = some c →
            s.dp.lastServed = .forward ∨ s.dp.forward = [] →
            exec .dpSelection s = .next { s with dp := { s.dp with
              sending := some (makeFrame c.dest s.address 0x32 (1 :: be16 c.position))
              slots := s.dp.slots.set n none
              lastServed := .own
              lastLane := n } })
          ∧ (∀ (f : Frame) (rest : List Frame), s.dp.forward = f :: rest →
              s.dp.lastServed = .own ∨ (∀ m, s.dp.slots.get m = none) →
              exec .dpSelection s = .next { s with dp := { s.dp with
                sending := some f, forward := rest, lastServed := .forward } })
          ∧ (s.dp.forward = [] → (∀ m, s.dp.slots.get m = none) → exec .dpSelection s = .next s))

/-- A selection by the idle UP transmitter: of the unit's own frames the oldest reply, else the next pending note slot
while the controller address is not 0, in turn with the forward queue; a lane's note carries the lane as it stands and
clears its marks (R145, R172, R174). -/
def Obligations.UpSelectionAlternatesOwnAndForwardedFrames : Prop :=
  ∀ s : State, s.held = false → s.up.sending = none →
    (∀ (r : Reply) (rest : List Reply), s.up.replies = r :: rest →
        s.up.lastServed = .forward ∨ s.up.forward = [] →
        exec .upSelection s = .next { s with up := { s.up with
          sending := some (makeFrame r.dest s.address 0x41 r.payload), replies := rest, lastServed := .own } })
      ∧ (∀ (pre post : List NoteSlot) (n : LaneId), s.up.replies = [] → s.controller ≠ 0 →
          notesAfter s.up.lastNote = pre ++ .lane n :: post → (∀ x ∈ pre, s.up.notePending x = false) →
          s.up.laneNotes.get n = true → s.up.lastServed = .forward ∨ s.up.forward = [] →
          let l := s.lane n
          let state := if l.seq.mode = .auto then l.seq.state else .idle
          let cause := if state = .fault then l.seq.faultCause.code
            else if state = .armed ∨ state = .indexing then l.seq.holdCause.code else 0
          exec .upSelection s = .next { s with
            lanes := s.lanes.set n { l with screenedMark := false }
            up := { s.up with
              sending := some (makeFrame s.controller s.address 0x48
                ([BitVec.ofNat 8 (laneNum n), l.seq.mode.code, state.code, cause]
                  ++ be16 ((s.activeOrder n).elim 0 (·.tag))
                  ++ [BitVec.ofNat 8 ((s.activeOrder n).elim 0 (·.compartment)), l.cls.active.code,
                      (if l.seq.silentMark then 1 else 0) ||| (if l.zero.buildup then 2 else 0)
                        ||| (if l.screenedMark then 4 else 0),
                      BitVec.ofNat 8 s.records.length, BitVec.ofNat 8 s.reservations, 0]))
              laneNotes := s.up.laneNotes.set n false
              lastServed := .own
              lastNote := .lane n } })
      ∧ (∀ (pre post : List NoteSlot), s.up.replies = [] → s.controller ≠ 0 →
          notesAfter s.up.lastNote = pre ++ .unit :: post → (∀ x ∈ pre, s.up.notePending x = false) →
          s.up.unitNote = true → s.up.lastServed = .forward ∨ s.up.forward = [] →
          exec .upSelection s = .next { s with up := { s.up with
            sending := some (makeFrame s.controller s.address 0x48
              [0xFF, 0, 0, 0, 0, 0, 0, 0, 0, BitVec.ofNat 8 s.records.length, BitVec.ofNat 8 s.reservations,
                (if s.up.common.linkUp then 1 else 0) ||| (if s.dp.common.linkUp then 2 else 0)])
            unitNote := false
            lastServed := .own
            lastNote := .unit } })
      ∧ (∀ (f : Frame) (rest : List Frame), s.up.forward = f :: rest →
          s.up.lastServed = .own
            ∨ (s.up.replies = [] ∧ (s.controller = 0 ∨ ∀ x : NoteSlot, s.up.notePending x = false)) →
          exec .upSelection s = .next { s with up := { s.up with
            sending := some f, forward := rest, lastServed := .forward } })
      ∧ (s.up.forward = [] → s.up.replies = [] →
          s.controller = 0 ∨ (∀ x : NoteSlot, s.up.notePending x = false) →
          exec .upSelection s = .next s)

/-- The end of a transmission leaves the transmitter idle; on DP an urgent entry that was in transmission leaves its
queue with it, and nothing else changes where no forced restart waits for the queue (R142, R143). That TRANSMIT_END
with nothing in transmission changes nothing is the model's reading (log 8). -/
def Obligations.TransmitEndFreesTheTransmitter : Prop :=
  ∀ s : State, s.held = false →
    exec (.transmitEnd .up) s = .next { s with up := { s.up with sending := none } }
      ∧ (s.dp.sending = none → exec (.transmitEnd .dp) s = .next s)
      ∧ ∀ f : Frame, s.dp.sending = some f →
        (s.restart = none ∨ (∃ e ∈ s.dp.urgent, e.sending = false) ∨ s.dp.urgent = []) →
        exec (.transmitEnd .dp) s = .next { s with dp := { s.dp with
          sending := none, urgent := s.dp.urgent.filter fun e => !e.sending } }

/-! ### Requests: what they share -/

/-- A request that finds four replies waiting is discarded and counted and does nothing else; in transparent mode no
request is taken at all (R147, R177, R184). Requests are taken in the order in which the switch hands them over: one
that is not the next changes nothing (R176; that it may stand in the queue of commands, and that a request handed over
waits in toResponder, is the model's form, logs 6 and 8). -/
def Obligations.RequestsWithoutRoomOrStationAreNotAnswered : Prop :=
  ∀ (c : Instr) (src : Byte) (payload : List Byte) (s : State), asks c = some (src, payload) → s.held = false →
    (s.transparent = true → exec c s = .next s)
      ∧ (inTurn s.toResponder (src, payload) = false → exec c s = .next s)
      ∧ (s.transparent = false → inTurn s.toResponder (src, payload) = true → 4 ≤ s.up.replies.length →
          exec c s = .next { s with
            toResponder := s.toResponder.erase (src, payload), unanswered := raised s.unanswered })

/-- Every answered request but RESTART gets exactly one reply, at the tail of the reply queue, to its source and with
its kind and tag echoed, 0 for what a short payload lacks; the controller address becomes its source (R178 to R180).
That it waited in toResponder is log 6. -/
def Obligations.AnsweredRequestGetsOneReplyAndSetsTheController : Prop :=
  ∀ (c : Instr) (src : Byte) (payload : List Byte) (s : State), asks c = some (src, payload) →
    s.Answers src payload → payload.head? ≠ some 0x14 →
    ∃ (t : State) (status : Status) (results : List Byte), exec c s = .next t ∧ t.controller = src
      ∧ t.toResponder = s.toResponder.erase (src, payload)
      ∧ t.up.replies = s.up.replies ++ [{ dest := src, payload :=
          [payload.getD 0 0, payload.getD 1 0, payload.getD 2 0, statusCode status] ++ results }]

/-- A request whose reply is a refusal changes nothing but the controller address (R180). -/
def Obligations.RefusedRequestChangesNothing : Prop :=
  ∀ (c : Instr) (src : Byte) (payload : List Byte) (s t : State) (r : Reply), asks c = some (src, payload) →
    s.Answers src payload → exec c s = .next t → t.up.replies = s.up.replies ++ [r] → 2 ≤ (r.payload.getD 3 0).toNat →
    t = (s.asked src payload).replying r.dest r.payload

/-- The steps of decoding: a payload without kind and tag is BAD_ARG with 0 for what is missing, a kind outside the
twenty is UNKNOWN, a payload too short for the arguments of its kind is BAD_ARG, an ORDER_POST that ends before its last target, its
vehicle tag length or its last character among them (R179, R191). A request given by its whole
payload with a known kind is answered as that kind (the model's operand form, log 7). -/
def Obligations.DecodingStepsOfARequest : Prop :=
  (∀ (s : State) (src : Byte) (payload : List Byte), s.Answers src payload →
      (payload.length < 3 →
          exec (.unknownRequest src payload) s =
            .next ((s.asked src payload).replying src [payload.getD 0 0, payload.getD 1 0, 0, 4]))
        ∧ (3 ≤ payload.length → (payload.getD 0 0).toNat = 0 ∨ 20 < (payload.getD 0 0).toNat →
          exec (.unknownRequest src payload) s =
            .next ((s.asked src payload).replying src [payload.getD 0 0, payload.getD 1 0, payload.getD 2 0, 10]))
        ∧ (3 ≤ payload.length → (payload.getD 0 0).toNat ≤ 20 →
          payload.length <
            3 + [0, 0, 3, 1, 0, 6, 10, 1, 4, 2, 1, 8, 2, 1, 1, 3, 6, 1, 1, 2, 1].getD (payload.getD 0 0).toNat 0 →
          exec (.unknownRequest src payload) s =
            .next ((s.asked src payload).replying src [payload.getD 0 0, payload.getD 1 0, payload.getD 2 0, 4]))
        ∧ ∀ (hi lo lane t1 t0 gang size noTrickle count : Byte) (rest : List Byte),
          payload = 0x0B :: hi :: lo :: lane :: t1 :: t0 :: gang :: size :: noTrickle :: count :: rest →
          let targets := 4 * count.toNat
          rest.length < targets + 1 + (rest.getD targets 0).toNat →
          exec (.unknownRequest src payload) s = .next ((s.asked src payload).replying src [0x0B, hi, lo, 4]))
    ∧ ∀ (c : Instr) (s : State) (src : Byte) (payload : List Byte), asks c = some (src, payload) →
      exec c s = exec (.unknownRequest src payload) s

/-! ### Requests on identity and routes -/

/-- IDENT carries the part's constants and the strapped address (R181); ROUTE_READ carries all 16 entries in index
order, an unused one as address 0 and role 0 (R155, R191). Neither changes anything. -/
def Obligations.IdentAndRouteReadReport : Prop :=
  ∀ (s : State) (src hi lo : Byte) (args : List Byte),
    (s.Answers src (0x01 :: hi :: lo :: args) → exec (.ident src (hi :: lo :: args)) s =
        .next ((s.asked src (0x01 :: hi :: lo :: args)).replying src
          [0x01, hi, lo, 0, 0x53, 0x54, 0x01, 0xA2, 3, 4, 16, 4, 24, s.straps.zeroExtend 8, 0]))
      ∧ (s.Answers src (0x04 :: hi :: lo :: args) → exec (.routeRead src (hi :: lo :: args)) s =
        .next ((s.asked src (0x04 :: hi :: lo :: args)).replying src
          ([0x04, hi, lo, 0] ++ (List.range 16).flatMap fun i =>
            match s.routeAt i with
            | none => [0, 0]
            | some (.head a n) => [a, BitVec.ofNat 8 (laneNum n)]
            | some (.isolation a ls) =>
              [a, 128#8 ||| (if ls.l0 then 1 else 0) ||| (if ls.l1 then 2 else 0) ||| (if ls.l2 then 4 else 0)
                ||| (if ls.l3 then 8 else 0)])))

/-- ROUTE_SET stores an entry that passes its checks and refuses one that touches the head of a lane in service or that
conflicts with another entry, naming the first check that fails and the first conflicting index; ROUTE_CLEAR makes an
entry unused, but not that of a lane in service (R152 to R154, R191). What role bytes spell an entry is log 12. -/
def Obligations.RouteSetAndRouteClearWriteTheTable : Prop :=
  ∀ (s : State) (src hi lo i a role : Byte) (rest : List Byte),
    let headInService := fun (e : Option RouteEntry) =>
      ∃ (b : Byte) (n : LaneId), e = some (.head b n) ∧ (s.lane n).seq.mode ≠ .outOfService
    let set := s.asked src (0x02 :: hi :: lo :: i :: a :: role :: rest)
    let clear := s.asked src (0x03 :: hi :: lo :: i :: rest)
    let answersSet := s.Answers src (0x02 :: hi :: lo :: i :: a :: role :: rest)
    (∀ e : RouteEntry, answersSet → i.toNat ≤ 15 → 1 ≤ a.toNat → a.toNat ≤ 126 → a ≠ s.address →
        routeEntryOf a role = some e →
        let tests : List (RouteEntry → Bool) := [fun o => routeAddress o == a, sameHead e, sharedIsolation e]
        (headInService (s.routeAt i.toNat) ∨ headInService (some e) →
            exec (.routeSet src (hi :: lo :: i :: a :: role :: rest)) s = .next (set.replying src [0x02, hi, lo, 3]))
          ∧ (¬headInService (s.routeAt i.toNat) → ¬headInService (some e) →
            (∀ (m : Nat) (test : RouteEntry → Bool), tests[m]? = some test →
                (∀ l other, l < m → tests[l]? = some other →
                  ∀ (k : Nat) (x : RouteEntry), k ≠ i.toNat → s.routeAt k = some x → other x = false) →
                ∀ (j : Nat) (o : RouteEntry), j ≠ i.toNat → s.routeAt j = some o → test o = true →
                (∀ (k : Nat) (x : RouteEntry), k < j → k ≠ i.toNat → s.routeAt k = some x → test x = false) →
                exec (.routeSet src (hi :: lo :: i :: a :: role :: rest)) s =
                  .next (set.replying src [0x02, hi, lo, 7, BitVec.ofNat 8 (3 + m), BitVec.ofNat 8 j]))
              ∧ ((∀ (j : Nat) (o : RouteEntry), j ≠ i.toNat → s.routeAt j = some o →
                  routeAddress o ≠ a ∧ sameHead e o = false ∧ sharedIsolation e o = false) →
                exec (.routeSet src (hi :: lo :: i :: a :: role :: rest)) s =
                  .next ({ set with routes := s.routes.setIfInBounds i.toNat (some e) }.replying src
                    [0x02, hi, lo, 0, i, a, role]))))
      ∧ (answersSet → (15 < i.toNat ∨ a.toNat = 0 ∨ 126 < a.toNat ∨ a = s.address ∨ routeEntryOf a role = none) →
          exec (.routeSet src (hi :: lo :: i :: a :: role :: rest)) s = .next (set.replying src [0x02, hi, lo, 4]))
      ∧ (s.Answers src (0x03 :: hi :: lo :: i :: rest) → exec (.routeClear src (hi :: lo :: i :: rest)) s = .next
          (if 16 ≤ i.toNat then clear.replying src [0x03, hi, lo, 4]
           else if s.headInService (s.routeAt i.toNat) then clear.replying src [0x03, hi, lo, 3]
           else { clear with routes := s.routes.setIfInBounds i.toNat none }.replying src [0x03, hi, lo, 0, i]))

/-! ### Requests on the lane banks -/

/-- PARAM_SET stores its value in the staged bank, brought into the parameter's range, the window to a power of two and
the coupled pairs kept consistent; the reply says whether anything was adjusted and names a second parameter changed;
a pending commit refuses it, and a lane above 3 or an id above 27 is BAD_ARG (R46, R48 to R50). -/
def Obligations.ParamSetBringsValuesIntoRange : Prop :=
  ∀ (s : State) (src hi lo lane id v3 v2 v1 v0 : Byte) (rest : List Byte),
    s.Answers src (0x05 :: hi :: lo :: lane :: id :: v3 :: v2 :: v1 :: v0 :: rest) →
    let body := hi :: lo :: lane :: id :: v3 :: v2 :: v1 :: v0 :: rest
    let t := s.asked src (0x05 :: body)
    let v := rd32 v3 v2 v1 v0
    let ranges : List (Nat × Nat) :=
      [(1, 32), (0, 32767), (2, 1000), (1, 1000), (0, 2000), (100, 60000), (0, 8000), (0, 5999), (0, 6000), (1, 255),
       (0, 10000), (1, 1000), (1, 1000), (1, 1000), (0, 100), (0, 50000), (0, 5000), (0, 500000), (0, 16),
       (0, 1000000), (100, 10000), (0, 7), (200, 30000), (0, 20000), (10, 5000), (0, 16), (1, 200), (1000, 600000)]
    (3 < lane.toNat ∨ 27 < id.toNat → exec (.paramSet src body) s = .next (t.replying src [0x05, hi, lo, 4]))
      ∧ ∀ n, laneOf lane.toNat = some n → id.toNat ≤ 27 →
        ((s.lane n).flow.commitPending = true →
            exec (.paramSet src body) s = .next (t.replying src [0x05, hi, lo, 2]))
          ∧ ((s.lane n).flow.commitPending = false →
            let l := s.lane n
            let p := l.flow.staged.params
            ∃ (q : Params) (second : Option (Nat × Nat)),
              exec (.paramSet src body) s = .next ({ t with
                  lanes := s.lanes.set n { l with flow := { l.flow with
                    staged := { l.flow.staged with params := q } } } }.replying src
                  ([0x05, hi, lo, if q.get id.toNat = v ∧ second = none then 0 else 1, id] ++ be32 (q.get id.toNat)
                    ++ (match second with
                        | some (k, x) => BitVec.ofNat 8 k :: be32 x
                        | none => 0xFF :: be32 0)))
                ∧ (∀ k, k ≤ 27 → k ≠ id.toNat → (∀ x, second ≠ some (k, x)) → q.get k = p.get k)
                ∧ (∀ k x, second = some (k, x) → q.get k = x)
                ∧ (id = 0 → second = none
                    ∧ q.get 0 = (if v = 0 then 1 else if 32 < v then 32 else 2 ^ Nat.log2 v))
                ∧ (id = 2 → q.get 2 = max 2 (min 1000 v)
                    ∧ second = if q.get 2 < p.nominalInterval then some (3, q.get 2) else none)
                ∧ (id = 3 → second = none ∧ q.get 3 = max 1 (min p.gapLimit v))
                ∧ (id = 7 → q.get 7 = min 5999 v
                    ∧ second = if p.pHigh ≤ q.get 7 then some (8, q.get 7 + 1) else none)
                ∧ (id = 8 → second = none ∧ q.get 8 = if min 6000 v ≤ p.pLow then p.pLow + 1 else min 6000 v)
                ∧ (id ≠ 0 → id ≠ 2 → id ≠ 3 → id ≠ 7 → id ≠ 8 → second = none
                    ∧ q.get id.toNat = max (ranges.getD id.toNat (0, 0)).1 (min (ranges.getD id.toNat (0, 0)).2 v)))

/-- CURVE_SET writes one slot of one staged curve and sets that curve's count, refusing arguments out of range, a lane
above 3 and a lane whose commit is pending (R51); BANK_READ answers with a part of a bank, refuses a lane, bank, part or
first index out of range, and changes nothing (R56). The code of its pending byte, 1 for set and 0 for clear, is the
model's choice (log 24), and so is what the number byte before the parameters counts, the values that follow it
(log 27). -/
def Obligations.CurveSetWritesOneSlotAndBankReadReadsIt : Prop :=
  (∀ (s : State) (src hi lo lane r count index f1 f0 q3 q2 q1 q0 : Byte) (rest : List Byte),
      s.Answers src (0x06 :: hi :: lo :: lane :: r :: count :: index :: f1 :: f0 :: q3 :: q2 :: q1 :: q0 :: rest) →
      3 < lane.toNat ∨ 2 < r.toNat →
      let body := hi :: lo :: lane :: r :: count :: index :: f1 :: f0 :: q3 :: q2 :: q1 :: q0 :: rest
      exec (.curveSet src body) s = .next ((s.asked src (0x06 :: body)).replying src [0x06, hi, lo, 4]))
    ∧ (∀ (s : State) (src hi lo lane r count index f1 f0 q3 q2 q1 q0 : Byte) (rest : List Byte) (n : LaneId) (g : Regime),
      s.Answers src (0x06 :: hi :: lo :: lane :: r :: count :: index :: f1 :: f0 :: q3 :: q2 :: q1 :: q0 :: rest) →
      laneOf lane.toNat = some n → regimeOf r.toNat = some g →
      let body := hi :: lo :: lane :: r :: count :: index :: f1 :: f0 :: q3 :: q2 :: q1 :: q0 :: rest
      let t := s.asked src (0x06 :: body)
      let l := s.lane n
      let written : Curve :=
        { count := count.toNat
          slots := (l.flow.staged.curves.get g).slots.setIfInBounds index.toNat
            { force := rd16 f1 f0, flow := rd32 q3 q2 q1 q0 } }
      exec (.curveSet src body) s = .next
        (if count.toNat = 0 ∨ 16 < count.toNat ∨ 15 < index.toNat ∨ 32767 < rd16 f1 f0
            ∨ 200000 < rd32 q3 q2 q1 q0 then t.replying src [0x06, hi, lo, 4]
         else if l.flow.commitPending then t.replying src [0x06, hi, lo, 2]
         else
           { t with lanes := s.lanes.set n { l with flow := { l.flow with
               staged := { l.flow.staged with curves := l.flow.staged.curves.set g written } } } }.replying src
             [0x06, hi, lo, 0, r, index, count]))
    ∧ (∀ (s : State) (src hi lo lane b part first : Byte) (rest : List Byte),
      s.Answers src (0x08 :: hi :: lo :: lane :: b :: part :: first :: rest) → 3 < lane.toNat →
      let body := hi :: lo :: lane :: b :: part :: first :: rest
      exec (.bankRead src body) s = .next ((s.asked src (0x08 :: body)).replying src [0x08, hi, lo, 4]))
    ∧ ∀ (s : State) (src hi lo lane b part first : Byte) (rest : List Byte) (n : LaneId),
      s.Answers src (0x08 :: hi :: lo :: lane :: b :: part :: first :: rest) →
      laneOf lane.toNat = some n →
      let body := hi :: lo :: lane :: b :: part :: first :: rest
      let t := s.asked src (0x08 :: body)
      let l := s.lane n
      let bank := if b.toNat = 0 then l.flow.active else l.flow.staged
      let pending : Byte := if l.flow.commitPending then 1 else 0
      (b.toNat ≤ 1 → ∀ g, regimeOf part.toNat = some g → first.toNat < 16 →
          exec (.bankRead src body) s = .next (t.replying src
            ([0x08, hi, lo, 0, pending, b, part, first, BitVec.ofNat 8 (bank.curves.get g).count]
              ++ (((((bank.curves.get g).slots.toList.take (bank.curves.get g).count).drop first.toNat).take 6).flatMap
                fun p => be16 p.force ++ be32 p.flow))))
        ∧ (b.toNat ≤ 1 → part = 3 → first.toNat < 28 →
          exec (.bankRead src body) s = .next (t.replying src
            ([0x08, hi, lo, 0, pending, b, part, first, BitVec.ofNat 8 (min 8 (28 - first.toNat))]
              ++ (((List.range 28).drop first.toNat).take 8).flatMap fun id => be32 (bank.params.get id))))
        ∧ ((1 < b.toNat ∨ 3 < part.toNat ∨ (part.toNat < 3 ∧ 15 < first.toNat) ∨ (part = 3 ∧ 27 < first.toNat)) →
          exec (.bankRead src body) s = .next (t.replying src [0x08, hi, lo, 4]))

/-- COMMIT refuses a lane above 3, a pending lane and a staged curve that fails its check, naming the first failing
breakpoint; otherwise the staged bank is applied at once out of service, in MANUAL and in IDLE, and stays pending in any
other state (R47, R52, R53, R55). -/
def Obligations.CommitChecksAndAppliesTheStagedBank : Prop :=
  (∀ points : List Breakpoint,
      let good := fun (i : Nat) =>
        match points[i]?, i with
        | some b, 0 => b.force = 0 ∧ b.flow = 0
        | some b, k + 1 => ∃ a, points[k]? = some a ∧ a.force < b.force ∧ a.flow ≤ b.flow
        | none, _ => 2 ≤ i
      ((curveFails points = none) ↔ 2 ≤ points.length ∧ ∀ i, i < points.length → good i)
        ∧ ∀ i, curveFails points = some i → ¬good i ∧ ∀ j, j < i → good j)
    ∧ (∀ (s : State) (src hi lo lane : Byte) (rest : List Byte),
      s.Answers src (0x07 :: hi :: lo :: lane :: rest) → 3 < lane.toNat →
      exec (.commit src (hi :: lo :: lane :: rest)) s =
        .next ((s.asked src (0x07 :: hi :: lo :: lane :: rest)).replying src [0x07, hi, lo, 4]))
    ∧ ∀ (s : State) (src hi lo lane : Byte) (rest : List Byte) (n : LaneId),
      s.Answers src (0x07 :: hi :: lo :: lane :: rest) →
      laneOf lane.toNat = some n →
      let t := s.asked src (0x07 :: hi :: lo :: lane :: rest)
      let l := s.lane n
      let staged := l.flow.staged
      let fails := fun (g : Regime) => curveFails ((staged.curves.get g).slots.toList.take (staged.curves.get g).count)
      (l.flow.commitPending = true →
          exec (.commit src (hi :: lo :: lane :: rest)) s = .next (t.replying src [0x07, hi, lo, 2]))
        ∧ (l.flow.commitPending = false →
          (∀ g i, fails g = some i → (∀ h : Regime, h.code.toNat < g.code.toNat → fails h = none) →
              exec (.commit src (hi :: lo :: lane :: rest)) s =
                .next (t.replying src [0x07, hi, lo, 5, g.code, BitVec.ofNat 8 i]))
            ∧ ((∀ g, fails g = none) → l.seq.mode = .auto → l.seq.state ≠ .idle →
              exec (.commit src (hi :: lo :: lane :: rest)) s =
                .next ({ t with lanes := s.lanes.set n { l with flow := { l.flow with commitPending := true } } }.replying
                  src [0x07, hi, lo, 0, 2]))
            ∧ ((∀ g, fails g = none) → l.seq.mode ≠ .auto ∨ l.seq.state = .idle →
              let limit : Int := staged.params.trimLimit
              let low := max (-32768) (l.zero.tareRef - staged.params.driftLimit)
              let high := min 32767 (l.zero.tareRef + staged.params.driftLimit)
              let outside : Bool := l.zero.tare < low || high < l.zero.tare
              let clamp := fun (x : Int) => max (-limit) (min limit x)
              exec (.commit src (hi :: lo :: lane :: rest)) s =
                .next ({ t with
                  lanes := s.lanes.set n { l with
                    cond := if staged.params.window = l.params.window then l.cond
                      else { l.cond with history := [] }
                    zero := { l.zero with
                      tare := if l.zero.tare < low then low else if high < l.zero.tare then high else l.zero.tare
                      holdAcc := 0
                      buildup := l.zero.buildup || outside }
                    cls := { l.cls with settleAcc := 0 }
                    flow := { l.flow with active := staged, commitPending := false }
                    trims := { settled := clamp l.trims.settled, aerated := clamp l.trims.aerated,
                               flushing := clamp l.trims.flushing } }
                  up := { s.up with laneNotes :=
                    if outside && !l.zero.buildup then s.up.laneNotes.set n true else s.up.laneNotes } }.replying
                  src [0x07, hi, lo, 0, 1])))

/-! ### Requests on a lane -/

/-- LANE_MODE: a lane above 3 and a mode above 2 are BAD_ARG; the present mode is answered OK unchanged; entry to
service needs valid curves and a routed head and clears history, first-sample state, accumulators, regimes and Q; from
MANUAL it always goes, and conditioner, zero tracker, classifier and lift mark stay; leaving AUTO is allowed from IDLE,
ARMED, GANG_WAIT and FAULT, discards the queue, returns a reservation and applies a pending bank with all its effects;
into AUTO the lane enters IDLE (R14, R25, R42, R54, R55, R77, R87 to R89, R93; State.ChangesMode spells it out). That
the OK for the present mode carries mode and state is the model's reading (log 21). -/
def Obligations.LaneModeChangesTheMode : Prop :=
  (∀ (s : State) (src hi lo lane mode : Byte) (rest : List Byte),
    s.Answers src (0x09 :: hi :: lo :: lane :: mode :: rest) → 3 < lane.toNat ∨ 2 < mode.toNat →
    let body := hi :: lo :: lane :: mode :: rest
    exec (.laneMode src body) s = .next ((s.asked src (0x09 :: body)).replying src [0x09, hi, lo, 4]))
  ∧ ∀ (s : State) (src hi lo lane mode : Byte) (rest : List Byte) (n : LaneId) (m : Mode),
    s.Answers src (0x09 :: hi :: lo :: lane :: mode :: rest) →
    laneOf lane.toNat = some n → modeOf mode.toNat = some m →
    let body := hi :: lo :: lane :: mode :: rest
    let a := s.asked src (0x09 :: body)
    let l := s.lane n
    let mayEnter := l.flow.active.curvesValid = true ∧ s.headOf n ≠ none
    let mayLeave := l.seq.state = .idle ∨ l.seq.state = .armed ∨ l.seq.state = .gangWait ∨ l.seq.state = .fault
    (m = l.seq.mode →
        exec (.laneMode src body) s = .next (a.replying src
          [0x09, hi, lo, 0, mode, (if m = .auto then l.seq.state else .idle).code]))
      ∧ (m ≠ l.seq.mode →
          (l.seq.mode = .outOfService ∧ ¬mayEnter) ∨ (l.seq.mode = .auto ∧ ¬mayLeave) →
          exec (.laneMode src body) s = .next (a.replying src [0x09, hi, lo, 3]))
      ∧ (m ≠ l.seq.mode → (l.seq.mode = .outOfService → mayEnter) → (l.seq.mode = .auto → mayLeave) →
          ∃ t, a.ChangesMode t n m ∧ (t.lane n).seq.mode = m
            ∧ exec (.laneMode src body) s = .next (t.replying src
                [0x09, hi, lo, 0, mode, (if m = .auto then (t.lane n).seq.state else .idle).code]))

/-- ZERO_CAL sets tare and tare reference to the saturated sum of tare and history average, clears BUILDUP, the hold
accumulator and the history, and is refused where the lane, its gate or its history does not allow it (R26 to R28).
For both a lane above 3 is BAD_ARG. TOTAL_CLEAR returns the manual total and clears it with its residue and MANUAL_FULL,
and OVERRANGE in MANUAL (R66). -/
def Obligations.ZeroCalAndTotalClear : Prop :=
  (∀ (s : State) (src hi lo lane : Byte) (rest : List Byte), 3 < lane.toNat →
      (s.Answers src (0x0A :: hi :: lo :: lane :: rest) → exec (.zeroCal src (hi :: lo :: lane :: rest)) s =
            .next ((s.asked src (0x0A :: hi :: lo :: lane :: rest)).replying src [0x0A, hi, lo, 4]))
        ∧ (s.Answers src (0x12 :: hi :: lo :: lane :: rest) → exec (.totalClear src (hi :: lo :: lane :: rest)) s =
            .next ((s.asked src (0x12 :: hi :: lo :: lane :: rest)).replying src [0x12, hi, lo, 4])))
  ∧ ∀ (s : State) (src hi lo lane : Byte) (rest : List Byte) (n : LaneId), laneOf lane.toNat = some n →
    let l := s.lane n
    let zero := s.asked src (0x0A :: hi :: lo :: lane :: rest)
    let total := s.asked src (0x12 :: hi :: lo :: lane :: rest)
    let mean := l.cond.history.sum.tdiv l.cond.history.length
    let tare := max (-32768) (min 32767 (l.zero.tare + mean))
    let allowed := (l.seq.mode = .auto → l.seq.state = .idle ∨ l.seq.state = .fault)
      ∧ (∃ g, l.cond.lastGate = some g ∧ g ≤ l.params.closedBand) ∧ l.cond.history ≠ []
    let answersZero := s.Answers src (0x0A :: hi :: lo :: lane :: rest)
    (answersZero → allowed →
        exec (.zeroCal src (hi :: lo :: lane :: rest)) s =
          .next ({ zero with lanes := s.lanes.set n { l with
              zero := { tare, tareRef := tare, holdAcc := 0, buildup := false }
              cond := { l.cond with history := [] } } }.replying src
            ([0x0A, hi, lo, 0] ++ be16s tare ++ be16s mean)))
      ∧ (answersZero → ¬allowed →
          exec (.zeroCal src (hi :: lo :: lane :: rest)) s = .next (zero.replying src [0x0A, hi, lo, 3]))
      ∧ (s.Answers src (0x12 :: hi :: lo :: lane :: rest) → exec (.totalClear src (hi :: lo :: lane :: rest)) s =
          .next ({ total with lanes := s.lanes.set n { l with
              integ := { l.integ with manualTotal := 0, manualResidue := 0, manualFull := false }
              flow := { l.flow with
                overrange := if l.seq.mode = Mode.manual then false else l.flow.overrange } } }.replying src
            ([0x12, hi, lo, 0] ++ be32 l.integ.manualTotal)))

/-- FAULT_CLEAR takes a lane in FAULT whose head reports and whose gate is closed to IDLE, where a pending bank is
applied and the head of the queue is taken up (State.EntersIdle spells it out); otherwise it is answered STATE, and a
lane above 3 BAD_ARG (R54, R73, R93, R111). -/
def Obligations.FaultClearReturnsTheLaneToIdle : Prop :=
  (∀ (s : State) (src hi lo lane : Byte) (rest : List Byte),
      s.Answers src (0x11 :: hi :: lo :: lane :: rest) → 3 < lane.toNat →
      exec (.faultClear src (hi :: lo :: lane :: rest)) s =
            .next ((s.asked src (0x11 :: hi :: lo :: lane :: rest)).replying src [0x11, hi, lo, 4]))
  ∧ ∀ (s : State) (src hi lo lane : Byte) (rest : List Byte) (n : LaneId),
    s.Answers src (0x11 :: hi :: lo :: lane :: rest) → laneOf lane.toNat = some n →
    let a := s.asked src (0x11 :: hi :: lo :: lane :: rest)
    let l := s.lane n
    let allowed := l.seq.mode = .auto ∧ l.seq.state = .fault ∧ l.seq.silentMark = false
      ∧ ∃ g, l.cond.lastGate = some g ∧ g ≤ l.params.closedBand
    (¬allowed →
        exec (.faultClear src (hi :: lo :: lane :: rest)) s = .next (a.replying src [0x11, hi, lo, 3]))
      ∧ (allowed → ∃ t, a.EntersIdle t n
          ∧ exec (.faultClear src (hi :: lo :: lane :: rest)) s =
              .next (t.replying src [0x11, hi, lo, 0, (t.lane n).seq.state.code]))

/-! ### Requests on orders -/

/-- ORDER_POST's checks in their order: the ranges of its arguments, the lane number among them, the lane in AUTO, no
order of that tag, one size per gang tag, room in the queue; an order that passes joins the tail of the lane's queue
with its progress fields clear (R69, R71, R72). -/
def Obligations.OrderPostChecksInOrderAndQueuesTheOrder : Prop :=
  (∀ (s : State) (src hi lo lane : Byte) (rest : List Byte),
      s.Answers src (0x0B :: hi :: lo :: lane :: rest) → 3 < lane.toNat →
      exec (.orderPost src (hi :: lo :: lane :: rest)) s =
        .next ((s.asked src (0x0B :: hi :: lo :: lane :: rest)).replying src [0x0B, hi, lo, 4]))
  ∧ ∀ (s : State) (src hi lo : Byte) (rest : List Byte) (p : OrderPostArgs) (n : LaneId),
    s.Answers src (0x0B :: hi :: lo :: (encodeOrderPost p ++ rest)) →
    laneOf p.lane = some n → p.tag < 65536 → p.gangTag < 256 → p.gangSize < 256 → p.noTrickle < 256 →
    p.targets.length < 256 → (∀ x ∈ p.targets, x < 4294967296) → p.vehicle.length < 256 →
    let body := hi :: lo :: (encodeOrderPost p ++ rest)
    let t := s.asked src (0x0B :: body)
    let present := fun (o : Order) => ∃ m, o ∈ s.queue m
    let inRange := 1 ≤ p.tag ∧ p.gangTag ≤ 15 ∧ (p.gangTag ≠ 0 → 2 ≤ p.gangSize ∧ p.gangSize ≤ 4) ∧ p.noTrickle ≤ 1
      ∧ 1 ≤ p.targets.length ∧ p.targets.length ≤ 4 ∧ (∀ x ∈ p.targets, 1 ≤ x ∧ x ≤ 1000000)
      ∧ p.vehicle.length ≤ 8 ∧ ∀ c ∈ p.vehicle, 0x20 ≤ c.toNat ∧ c.toNat ≤ 0x7E
    let posted : Order :=
      { tag := p.tag, vehicle := if p.vehicle = [] then none else some p.vehicle, targets := p.targets,
        gangTag := p.gangTag, gangSize := if p.gangTag = 0 then none else some p.gangSize,
        noTrickle := p.noTrickle = 1, active := false, compartment := 0, results := [], cancelNoted := false,
        reserved := false }
    (¬inRange → exec (.orderPost src body) s = .next (t.replying src [0x0B, hi, lo, 4]))
      ∧ (inRange → (s.lane n).seq.mode ≠ .auto → exec (.orderPost src body) s = .next (t.replying src [0x0B, hi, lo, 3]))
      ∧ (inRange → (s.lane n).seq.mode = .auto →
        ((∃ o, present o ∧ o.tag = p.tag) →
            exec (.orderPost src body) s = .next (t.replying src [0x0B, hi, lo, 7, 1, 0xFF]))
          ∧ ((∀ o, present o → o.tag ≠ p.tag) →
            ((∃ o, present o ∧ p.gangTag ≠ 0 ∧ o.gangTag = p.gangTag ∧ o.gangSize ≠ some p.gangSize) →
                exec (.orderPost src body) s = .next (t.replying src [0x0B, hi, lo, 7, 2, 0xFF]))
              ∧ ((∀ o, present o → p.gangTag ≠ 0 → o.gangTag = p.gangTag → o.gangSize = some p.gangSize) →
                (4 ≤ (s.queue n).length →
                    exec (.orderPost src body) s = .next (t.replying src [0x0B, hi, lo, 6]))
                  ∧ ((s.queue n).length < 4 →
                    exec (.orderPost src body) s =
                      .next ({ t with orders := s.orders.set n (s.queue n ++ [posted]) }.replying src
                        [0x0B, hi, lo, 0, BitVec.ofNat 8 p.lane, BitVec.ofNat 8 ((s.queue n).length + 1)])))))

/-- LANE_READ carries the lane as it stands in the 42 bytes of section 12.3 (R118, R182, R191); ORDER_LIST carries the
orders of a lane, head first, and the waiting count of its gang in GANG_WAIT (R76, R79, R191). Neither changes
anything, and for both a lane above 3 is BAD_ARG. -/
def Obligations.LaneReadAndOrderListReport : Prop :=
  (∀ (s : State) (src hi lo lane : Byte) (rest : List Byte), 3 < lane.toNat →
      (s.Answers src (0x0E :: hi :: lo :: lane :: rest) → exec (.laneRead src (hi :: lo :: lane :: rest)) s =
            .next ((s.asked src (0x0E :: hi :: lo :: lane :: rest)).replying src [0x0E, hi, lo, 4]))
        ∧ (s.Answers src (0x0D :: hi :: lo :: lane :: rest) → exec (.orderList src (hi :: lo :: lane :: rest)) s =
            .next ((s.asked src (0x0D :: hi :: lo :: lane :: rest)).replying src [0x0D, hi, lo, 4])))
  ∧ ∀ (s : State) (src hi lo lane : Byte) (rest : List Byte) (n : LaneId), laneOf lane.toNat = some n →
    let l := s.lane n
    let auto := l.seq.mode = .auto
    let bit := fun (k : Byte) (b : Bool) => if b then k else 0
    let waits := fun (g : Nat) (m : LaneId) => (s.lane m).seq.mode = .auto ∧ (s.lane m).seq.state = .gangWait
      ∧ ∃ o, s.activeOrder m = some o ∧ o.gangTag = g
    (s.Answers src (0x0E :: hi :: lo :: lane :: rest) → exec (.laneRead src (hi :: lo :: lane :: rest)) s =
      .next ((s.asked src (0x0E :: hi :: lo :: lane :: rest)).replying src
        ([0x0E, hi, lo, 0, l.seq.mode.code, if auto then l.seq.state.code else 0,
            if auto then l.seq.holdCause.code else 0, if auto then l.seq.faultCause.code else 0]
          ++ be16 ((s.activeOrder n).elim 0 (·.tag)) ++ [BitVec.ofNat 8 ((s.activeOrder n).elim 0 (·.compartment))]
          ++ be32 l.integ.grams ++ be32 l.flow.flow ++ [l.cls.active.code, l.cls.candidate.code]
          ++ be16s l.zero.tare ++ be16s l.zero.tareRef
          ++ [bit 1 l.zero.buildup ||| bit 2 l.flow.overrange ||| bit 4 l.seq.silentMark
                ||| bit 8 l.integ.manualFull ||| bit 16 l.flow.commitPending]
          ++ be32s l.trims.settled ++ be32s l.trims.aerated ++ be32s l.trims.flushing
          ++ be16 l.flow.meterFactor ++ be32 l.integ.manualTotal
          ++ [BitVec.ofNat 8 s.records.length, BitVec.ofNat 8 s.reservations])))
      ∧ ∃ waiting : Nat, (s.Answers src (0x0D :: hi :: lo :: lane :: rest) →
        exec (.orderList src (hi :: lo :: lane :: rest)) s =
            .next ((s.asked src (0x0D :: hi :: lo :: lane :: rest)).replying src
              ([0x0D, hi, lo, 0, BitVec.ofNat 8 (s.queue n).length, BitVec.ofNat 8 waiting]
                ++ (s.queue n).flatMap fun o =>
                  be16 o.tag ++ [BitVec.ofNat 8 o.targets.length, BitVec.ofNat 8 o.compartment,
                    (if o.active then 1 else 0) ||| (if o.noTrickle then 2 else 0), BitVec.ofNat 8 o.gangTag,
                    BitVec.ofNat 8 (o.gangSize.getD 0)])))
          ∧ (∀ o, s.activeOrder n = some o → waits o.gangTag n →
              ∃ members : List LaneId, members.Nodup ∧ members.length = waiting
                ∧ ∀ m, m ∈ members ↔ waits o.gangTag m)
          ∧ ((∀ g, ¬waits g n) → waiting = 0)

/-- ORDER_CANCEL: tag 0 is BAD_ARG, a tag no queue holds is NOT_FOUND, a queued order is removed without a trace, and an
active one is removed in ARMED, ended with a CANCELLED record in GANG_WAIT and INDEXING, the lane then entering IDLE
(State.EntersIdle), cut off in FILLING and TRICKLE with CLOSE for the lane's head, and noted in CUTOFF and SETTLING
(R75, R84, R93, R102, R112, R114). -/
def Obligations.OrderCancelActsByTheOrdersState : Prop :=
  ∀ (s : State) (src hi lo t1 t0 : Byte) (rest : List Byte), s.Answers src (0x0C :: hi :: lo :: t1 :: t0 :: rest) →
    let body := hi :: lo :: t1 :: t0 :: rest
    let tag := rd16 t1 t0
    let a := s.asked src (0x0C :: body)
    (tag = 0 → exec (.orderCancel src body) s = .next (a.replying src [0x0C, hi, lo, 4]))
      ∧ (tag ≠ 0 → (∀ n, ∀ o ∈ s.queue n, o.tag ≠ tag) →
          exec (.orderCancel src body) s = .next (a.replying src [0x0C, hi, lo, 8]))
      ∧ ∀ n, tag ≠ 0 → (∃ o ∈ s.queue n, o.tag = tag) →
        (∀ m, laneNum m < laneNum n → ∀ o ∈ s.queue m, o.tag ≠ tag) →
        ((∀ o, s.activeOrder n = some o → o.tag ≠ tag) →
            exec (.orderCancel src body) s =
              .next ({ a with orders := s.orders.set n ((s.queue n).eraseP fun o => o.tag == tag) }.replying src
                [0x0C, hi, lo, 0, BitVec.ofNat 8 (laneNum n), 1]))
          ∧ ∀ o, s.activeOrder n = some o → o.tag = tag →
            let l := s.lane n
            let reply := fun (code : Byte) => [0x0C, hi, lo, 0, BitVec.ofNat 8 (laneNum n), code]
            (l.seq.state = .armed →
                ∃ t, { a with orders := s.orders.set n ((s.queue n).drop 1) }.EntersIdle t n
                  ∧ exec (.orderCancel src body) s = .next (t.replying src (reply 1)))
              ∧ (l.seq.state = .gangWait →
                ∃ t, ({ a with lanes := s.lanes.set n { l with seq := { l.seq with gangTimer := none } } }.ended n o
                    .cancelled none).EntersIdle t n
                  ∧ exec (.orderCancel src body) s = .next (t.replying src (reply 2)))
              ∧ (l.seq.state = .indexing →
                ∃ t, (a.ended n o .cancelled none).EntersIdle t n
                  ∧ exec (.orderCancel src body) s = .next (t.replying src (reply 2)))
              ∧ (l.seq.state = .filling ∨ l.seq.state = .trickle →
                ∃ urgent, s.ClosesPlaced [(n, .headClose)] urgent
                  ∧ exec (.orderCancel src body) s = .next ((a.cutTo n .cancel urgent).replying src (reply 3)))
              ∧ (l.seq.state = .cutoff ∨ l.seq.state = .settling →
                let noted : Order := { o with cancelNoted := true }
                exec (.orderCancel src body) s =
                  .next ({ a with orders := s.orders.set n (noted :: (s.queue n).drop 1) }.replying src (reply 4)))

/-! ### Requests on records, reconciliation, counters and the unit -/

/-- RECORD_TAKE's checks in their order, the part it carries in the layout of section 12.4, and the removal of the
oldest record by the take of its last part (R168, R192). The code of the removed mark, 1 for set and 0 for clear, is
the model's choice (log 24). -/
def Obligations.RecordTakeReadsAndRemovesTheOldestRecord : Prop :=
  ∀ (s : State) (src hi lo part t1 t0 : Byte) (rest : List Byte),
    s.Answers src (0x0F :: hi :: lo :: part :: t1 :: t0 :: rest) →
    let body := hi :: lo :: part :: t1 :: t0 :: rest
    let a := s.asked src (0x0F :: body)
    let refused := fun (code : Byte) => exec (.recordTake src body) s = .next (a.replying src [0x0F, hi, lo, code])
    (4 < part.toNat → refused 4)
      ∧ (part.toNat ≤ 4 → s.records = [] → refused 9)
      ∧ ∀ (r : Record) (more : List Record), part.toNat ≤ 4 → s.records = r :: more →
        (rd16 t1 t0 ≠ 0 → rd16 t1 t0 ≠ r.tag → refused 8)
          ∧ (rd16 t1 t0 = 0 ∨ rd16 t1 t0 = r.tag →
            (r.results.length < part.toNat → refused 4)
              ∧ (part.toNat ≤ r.results.length →
                let last : Bool := part.toNat = r.results.length
                let left := if last then more else r :: more
                let chars := r.vehicle.getD []
                let content := fun (k : Nat) =>
                  match k with
                  | 0 => be16 r.tag ++ [BitVec.ofNat 8 (laneNum r.lane), BitVec.ofNat 8 chars.length] ++ chars
                      ++ List.replicate (8 - chars.length) 0
                      ++ [BitVec.ofNat 8 r.targetCount, r.outcome.code, (r.faultCause.getD .none).code]
                      ++ be16 r.factorAtEnd ++ [BitVec.ofNat 8 r.results.length]
                  | i + 1 =>
                    match r.results[i]? with
                    | some c => be32 c.target ++ be32 c.cutoffGrams ++ be32 c.finalGrams ++ be32s c.overshoot
                        ++ [c.regime.code, c.cause.code,
                            (if c.overrange then 1 else 0) ||| (if c.gap then 2 else 0)
                              ||| (if c.settleCut then 4 else 0) ||| (if c.learned then 8 else 0)]
                    | none => []
                exec (.recordTake src body) s =
                  .next ({ a with records := left }.replying src
                    ([0x0F, hi, lo, 0, part, if last then 1 else 0, BitVec.ofNat 8 left.length,
                        BitVec.ofNat 8 s.reservations] ++ content part.toNat))))

/-- SCALE_RESULT's checks in their order, and its decision against the lowest-numbered lane whose entry carries the tag
unreconciled: outside the window the entry is marked and the factor kept, inside it the factor moves by the correction
and is held within 9000 to 11000 (R128 to R130, R132). -/
def Obligations.ScaleResultCorrectsTheMeterFactor : Prop :=
  ∀ (s : State) (src hi lo t1 t0 k3 k2 k1 k0 : Byte) (rest : List Byte),
    s.Answers src (0x10 :: hi :: lo :: t1 :: t0 :: k3 :: k2 :: k1 :: k0 :: rest) →
    let body := hi :: lo :: t1 :: t0 :: k3 :: k2 :: k1 :: k0 :: rest
    let tag := rd16 t1 t0
    let kg := rd32 k3 k2 k1 k0
    let a := s.asked src (0x10 :: body)
    let refused := fun (code : Byte) => exec (.scaleResult src body) s = .next (a.replying src [0x10, hi, lo, code])
    (tag = 0 ∨ 4000000 < kg → refused 4)
      ∧ (tag ≠ 0 → kg ≤ 4000000 →
        ((∀ n e, (s.lane n).recon = some e → e.tag ≠ tag) → refused 8)
          ∧ ((∃ n e, (s.lane n).recon = some e ∧ e.tag = tag) →
            (∀ n e, (s.lane n).recon = some e → e.tag = tag → e.reconciled = true) → refused 3)
          ∧ ∀ n e, (s.lane n).recon = some e → e.tag = tag → e.reconciled = false →
            (∀ m x, laneNum m < laneNum n → (s.lane m).recon = some x → x.tag = tag → x.reconciled = true) →
            let l := s.lane n
            let p := l.params
            let difference : Int := (kg * 1000 : Nat) - (e.metered : Int)
            let outside := e.metered = 0 ∨ e.metered * p.reconcileWindow < difference.natAbs * 1000
            let correction := ((e.factorAtEnd : Int) * difference * p.reconcileGain).tdiv (16 * e.metered)
            let factor := if outside then l.flow.meterFactor
              else (max 9000 (min 11000 ((l.flow.meterFactor : Int) + correction))).toNat
            exec (.scaleResult src body) s =
              .next ({ a with lanes := s.lanes.set n { l with
                  recon := some { e with reconciled := true }
                  flow := { l.flow with meterFactor := factor } } }.replying src
                ([0x10, hi, lo, if outside then 1 else 0, BitVec.ofNat 8 (laneNum n)] ++ be32 e.metered
                  ++ be16 e.factorAtEnd ++ be16 l.flow.meterFactor ++ be16 factor)))

/-- COUNTERS_READ carries the counters of its group as they stand and with the clear flag set zeroes that group's
counters and nothing else; a group above 5 is BAD_ARG, and every other request of the layout OK (R148, R183, R191). A
clear byte of 0 is clear and of 1 is set; whether a greater one is read as set or as clear is open (log 11). -/
def Obligations.CountersReadReportsAndClears : Prop :=
  ∀ (s : State) (src hi lo group clear : Byte) (rest : List Byte),
    s.Answers src (0x13 :: hi :: lo :: group :: clear :: rest) →
    let body := hi :: lo :: group :: clear :: rest
    let a := s.asked src (0x13 :: body)
    let port := fun (c : PortCounters) => be32 c.checkErrors ++ be32 c.formErrors ++ be32 c.fragments ++ be32 c.forwardDrops
    let noPort : PortCounters := { checkErrors := 0, formErrors := 0, fragments := 0, forwardDrops := 0 }
    let link : Byte := (if s.up.common.linkUp then 1 else 0) ||| (if s.dp.common.linkUp then 2 else 0)
    (5 < group.toNat → exec (.countersRead src body) s = .next (a.replying src [0x13, hi, lo, 4]))
      ∧ ∃ set : Bool, (clear = 0 → set = false) ∧ (clear = 1 → set = true)
        ∧ (group = 0 →
          exec (.countersRead src body) s =
            .next ((if set then
                { a with
                  up := { s.up with common := { s.up.common with counters := noPort } }
                  dp := { s.dp with common := { s.dp.common with counters := noPort } } }
              else a).replying src
              ([0x13, hi, lo, 0, group, link] ++ port s.up.common.counters ++ port s.dp.common.counters)))
        ∧ (∀ n, group.toNat = laneNum n + 1 →
          let l := s.lane n
          let c := l.counters
          exec (.countersRead src body) s =
            .next ((if set then
                { a with lanes := s.lanes.set n { l with counters :=
                  { samplesTaken := 0, duplicates := 0, gaps := 0, spikes := 0, formErrors := 0, screened := 0 } } }
              else a).replying src
              ([0x13, hi, lo, 0, group] ++ be32 c.samplesTaken ++ be32 c.duplicates ++ be32 c.gaps ++ be32 c.spikes
                ++ be32 c.formErrors ++ be32 c.screened)))
        ∧ (group = 5 →
          exec (.countersRead src body) s =
            .next ((if set then { a with unanswered := 0, wrongPort := 0 } else a).replying src
              ([0x13, hi, lo, 0, group] ++ be32 s.unanswered ++ be32 s.wrongPort
                ++ [BitVec.ofNat 8 s.records.length, BitVec.ofNat 8 s.reservations])))

/-- RESTART: a force byte above 1 is BAD_ARG, a restart under way BUSY, lanes filling without force STATE; with no
lane filling it completes at once, with the restart values of every block (State.Restarted spells them out); forced,
it places CLOSE for the head and the isolation station of each lane found filling, empties position slots, note slots
and screened marks, starts the 50 ms bound and places no reply (R115 to R117, R149, R175, R185, R187). The
model's choices: a completion at once reports 0 urgent entries discarded (log 15) and clears the GAP flag (log 14),
and the lists of what waits between two blocks stay but for the request itself (log 6). -/
def Obligations.RestartIsRefusedImmediateOrForced : Prop :=
  ∀ (s : State) (src hi lo force : Byte) (rest : List Byte), s.Answers src (0x14 :: hi :: lo :: force :: rest) →
    let body := hi :: lo :: force :: rest
    let a := s.asked src (0x14 :: body)
    (1 < force.toNat → exec (.restart src body) s = .next (a.replying src [0x14, hi, lo, 4]))
      ∧ (force.toNat ≤ 1 →
        (s.restart ≠ none → exec (.restart src body) s = .next (a.replying src [0x14, hi, lo, 2]))
          ∧ (s.restart = none →
            ((∀ n, ¬(s.lane n).Runs) → ∃ t, exec (.restart src body) s = .next t
                ∧ a.Restarted t { dest := src, payload := [0x14, hi, lo, 0, force, 1, 0] ++ s.lanesReport })
              ∧ ((∃ n, (s.lane n).Runs) → force = 0 →
                exec (.restart src body) s = .next (a.replying src [0x14, hi, lo, 3]))
              ∧ ((∃ n, (s.lane n).Runs) → force = 1 → ∃ t urgent, exec (.restart src body) s = .next t
                ∧ s.ClosesPlaced ((allLanes.filter fun n => (s.lane n).Runs).flatMap fun n =>
                    [(n, .headClose), (n, .isolationClose)]) urgent
                ∧ (∀ n, t.lane n = { s.lane n with screenedMark := false } ∧ t.dp.slots.get n = none
                    ∧ t.up.laneNotes.get n = false)
                ∧ t = { a with
                    lanes := t.lanes
                    restart := some { src, tagHi := hi, tagLo := lo, force := 1,
                                      bound := { start := s.clock, duration := 50 } }
                    up := { s.up with laneNotes := t.up.laneNotes, unitNote := false }
                    dp := { s.dp with slots := t.dp.slots, urgent } })))

/-! ### Byte layouts -/

/-- What the byte layouts carry is read back whole: the arguments of every request kind that has any (R191), followed
by whatever bytes (R179), a measurement with the limits of R2 (R190), and a route entry's two bytes (R191), where
which role bytes spell an entry is the model's reading (log 12). Numbers go most significant byte first (R189), and the
codes of modes, states, regimes, causes and outcomes are those of R193. -/
def Obligations.LayoutsAreReadBackWhole : Prop :=
  (∀ (n : Nat) (rest : List Byte), n < 256 → decodeByteArg (encodeByteArg n ++ rest) = some n)
    ∧ (∀ (n : Nat) (rest : List Byte), n < 65536 → decodeTagArg (encodeTagArg n ++ rest) = some n)
    ∧ (∀ (a : RouteSetArgs) (rest : List Byte), a.index < 256 → decodeRouteSet (encodeRouteSet a ++ rest) = some a)
    ∧ (∀ (a : ParamSetArgs) (rest : List Byte), a.lane < 256 → a.id < 256 → a.value < 4294967296 →
        decodeParamSet (encodeParamSet a ++ rest) = some a)
    ∧ (∀ (a : CurveSetArgs) (rest : List Byte), a.lane < 256 → a.regime < 256 → a.count < 256 → a.index < 256 →
        a.force < 65536 → a.flow < 4294967296 → decodeCurveSet (encodeCurveSet a ++ rest) = some a)
    ∧ (∀ (a : BankReadArgs) (rest : List Byte), a.lane < 256 → a.bank < 256 → a.part < 256 → a.first < 256 →
        decodeBankRead (encodeBankRead a ++ rest) = some a)
    ∧ (∀ (a : LaneModeArgs) (rest : List Byte), a.lane < 256 → a.mode < 256 →
        decodeLaneMode (encodeLaneMode a ++ rest) = some a)
    ∧ (∀ (a : OrderPostArgs) (rest : List Byte), a.lane < 256 → a.tag < 65536 → a.gangTag < 256 → a.gangSize < 256 →
        a.noTrickle < 256 → a.targets.length < 256 → (∀ x ∈ a.targets, x < 4294967296) → a.vehicle.length < 256 →
        decodeOrderPost (encodeOrderPost a ++ rest) = some a)
    ∧ (∀ (a : RecordTakeArgs) (rest : List Byte), a.part < 256 → a.tag < 65536 →
        decodeRecordTake (encodeRecordTake a ++ rest) = some a)
    ∧ (∀ (a : ScaleResultArgs) (rest : List Byte), a.tag < 65536 → a.netKg < 4294967296 →
        decodeScaleResult (encodeScaleResult a ++ rest) = some a)
    ∧ (∀ (a : CountersReadArgs) (rest : List Byte), a.group < 256 →
        decodeCountersRead (encodeCountersRead a ++ rest) = some a)
    ∧ (∀ (timestamp pressure gate : Nat) (force : Int) (flags pad : Byte), timestamp < 65536 → pressure < 65536 →
        gate < 65536 → -32768 ≤ force → force ≤ 32767 →
        readMeas (be16 timestamp ++ be16s force ++ be16 pressure ++ be16 gate ++ [flags, pad]) =
          some { timestamp := BitVec.ofNat 16 timestamp, force, pressure := min 6000 pressure, gate := min 1000 gate,
                 flags := { bellowsDown := flags.getLsbD 0, levelProbe := flags.getLsbD 1,
                            headFault := flags.getLsbD 2, gateMoving := flags.getLsbD 3 } })
    ∧ (∀ (a role : Byte) (e : RouteEntry), routeEntryOf a role = some e → routeBytes (some e) = [a, role])
    ∧ (∀ b3 b2 b1 b0 : Byte, rd32 b3 b2 b1 b0 = ((b3.toNat * 256 + b2.toNat) * 256 + b1.toNat) * 256 + b0.toNat
        ∧ be32 (rd32 b3 b2 b1 b0) = [b3, b2, b1, b0] ∧ be16 (rd16 b1 b0) = [b1, b0])
    ∧ [Mode.outOfService, .manual, .auto].map Mode.code = [0, 1, 2]
    ∧ [LaneState.idle, .armed, .gangWait, .filling, .trickle, .cutoff, .settling, .indexing, .fault].map LaneState.code
        = [0, 1, 2, 3, 4, 5, 6, 7, 8]
    ∧ [Regime.settled, .aerated, .flushing].map Regime.code = [0, 1, 2]
    ∧ [HoldCause.none, .headSilent, .headFault, .noVehicle, .probeActive, .gateOpen, .recordsFull].map HoldCause.code
        = [0, 1, 2, 3, 4, 5, 6]
    ∧ [FaultCause.none, .headSilent, .headFault, .runaway, .gateStuck].map FaultCause.code = [0, 1, 2, 7, 8]
    ∧ [CutCause.preact, .levelProbe, .permitLost, .operator, .cancel, .fault].map CutCause.code = [1, 2, 3, 4, 5, 6]
    ∧ [OrderOutcome.complete, .cancelled, .stopped, .interrupted, .faulted, .gangTimeout].map OrderOutcome.code
        = [1, 2, 3, 4, 5, 6]
end

