-- ==== Sys2Proof/Laws/State.lean ====
section
/-! SUPPORT. What each update of State leaves in each field: one lemma per field per update, true by definition, so that
no proof unfolds a record update. -/

namespace Sys2Proof.Machine

/-! ### One value per lane, one per regime -/

@[simp] theorem PerLane.get_set_self {α : Type} (v : PerLane α) (n : LaneId) (x : α) : (v.set n x).get n = x := by
  cases n <;> rfl

@[simp] theorem PerLane.get_set_of_ne {α : Type} (v : PerLane α) {n m : LaneId} (x : α) (h : m ≠ n) :
    (v.set n x).get m = v.get m := by
  cases n <;> cases m <;> first | rfl | exact absurd rfl h

theorem PerLane.get_set {α : Type} (v : PerLane α) (n m : LaneId) (x : α) :
    (v.set n x).get m = if m = n then x else v.get m := by
  cases n <;> cases m <;> rfl

@[simp] theorem PerLane.get_all {α : Type} (n : LaneId) (x : α) : (PerLane.all x).get n = x := by cases n <;> rfl

@[simp] theorem PerLane.set_get_self {α : Type} (v : PerLane α) (n : LaneId) : v.set n (v.get n) = v := by
  cases n <;> rfl

@[simp] theorem PerLane.set_set_self {α : Type} (v : PerLane α) (n : LaneId) (x y : α) :
    (v.set n x).set n y = v.set n y := by
  cases n <;> rfl

theorem PerLane.ext_get {α : Type} {v w : PerLane α} (h : ∀ n, v.get n = w.get n) : v = w := by
  obtain ⟨a, b, c, d⟩ := v
  obtain ⟨a', b', c', d'⟩ := w
  have h0 : a = a' := h .lane0
  have h1 : b = b' := h .lane1
  have h2 : c = c' := h .lane2
  have h3 : d = d' := h .lane3
  subst h0 h1 h2 h3
  rfl

@[simp] theorem PerRegime.get_set_self {α : Type} (v : PerRegime α) (r : Regime) (x : α) : (v.set r x).get r = x := by
  cases r <;> rfl

theorem PerRegime.get_set {α : Type} (v : PerRegime α) (r q : Regime) (x : α) :
    (v.set r x).get q = if q = r then x else v.get q := by
  cases r <;> cases q <;> rfl

@[simp] theorem mem_allLanes (n : LaneId) : n ∈ allLanes := by cases n <;> decide

theorem laneNum_lt (n : LaneId) : laneNum n < 4 := by cases n <;> decide

@[simp] theorem laneOf_laneNum (n : LaneId) : laneOf (laneNum n) = some n := by cases n <;> rfl

theorem laneOf_eq_some {k : Nat} {n : LaneId} (h : laneOf k = some n) : k = laneNum n := by
  unfold laneOf at h
  split at h <;> first | (cases h; rfl) | cases h

theorem laneNum_injective {n m : LaneId} (h : laneNum n = laneNum m) : n = m := by
  cases n <;> cases m <;> first | rfl | exact absurd h (by decide)

/-! ### A lane replaced -/

@[simp] theorem State.putLane_straps (s : State) (n : LaneId) (l : Lane) : (s.putLane n l).straps = s.straps := rfl

@[simp] theorem State.putLane_held (s : State) (n : LaneId) (l : Lane) : (s.putLane n l).held = s.held := rfl

@[simp] theorem State.putLane_clock (s : State) (n : LaneId) (l : Lane) : (s.putLane n l).clock = s.clock := rfl

@[simp] theorem State.putLane_routes (s : State) (n : LaneId) (l : Lane) : (s.putLane n l).routes = s.routes := rfl

@[simp] theorem State.putLane_orders (s : State) (n : LaneId) (l : Lane) : (s.putLane n l).orders = s.orders := rfl

@[simp] theorem State.putLane_records (s : State) (n : LaneId) (l : Lane) : (s.putLane n l).records = s.records := rfl

@[simp] theorem State.putLane_reservations (s : State) (n : LaneId) (l : Lane) :
    (s.putLane n l).reservations = s.reservations := rfl

@[simp] theorem State.putLane_up (s : State) (n : LaneId) (l : Lane) : (s.putLane n l).up = s.up := rfl

@[simp] theorem State.putLane_dp (s : State) (n : LaneId) (l : Lane) : (s.putLane n l).dp = s.dp := rfl

@[simp] theorem State.putLane_controller (s : State) (n : LaneId) (l : Lane) :
    (s.putLane n l).controller = s.controller := rfl

@[simp] theorem State.putLane_restart (s : State) (n : LaneId) (l : Lane) : (s.putLane n l).restart = s.restart := rfl

@[simp] theorem State.putLane_unanswered (s : State) (n : LaneId) (l : Lane) :
    (s.putLane n l).unanswered = s.unanswered := rfl

@[simp] theorem State.putLane_wrongPort (s : State) (n : LaneId) (l : Lane) :
    (s.putLane n l).wrongPort = s.wrongPort := rfl

@[simp] theorem State.putLane_toSwitch (s : State) (n : LaneId) (l : Lane) :
    (s.putLane n l).toSwitch = s.toSwitch := rfl

@[simp] theorem State.putLane_toLanes (s : State) (n : LaneId) (l : Lane) : (s.putLane n l).toLanes = s.toLanes := rfl

@[simp] theorem State.putLane_toResponder (s : State) (n : LaneId) (l : Lane) :
    (s.putLane n l).toResponder = s.toResponder := rfl

@[simp] theorem State.putLane_pending (s : State) (n : LaneId) (l : Lane) : (s.putLane n l).pending = s.pending := rfl

@[simp] theorem State.putLane_queue (s : State) (n : LaneId) (l : Lane) (k : LaneId) :
    (s.putLane n l).queue k = s.queue k := rfl

@[simp] theorem State.putLane_activeOrder (s : State) (n : LaneId) (l : Lane) (k : LaneId) :
    (s.putLane n l).activeOrder k = s.activeOrder k := rfl

@[simp] theorem State.putLane_headOf (s : State) (n : LaneId) (l : Lane) (k : LaneId) :
    (s.putLane n l).headOf k = s.headOf k := rfl

@[simp] theorem State.putLane_isolationOf (s : State) (n : LaneId) (l : Lane) (k : LaneId) :
    (s.putLane n l).isolationOf k = s.isolationOf k := rfl

@[simp] theorem State.putLane_headLane (s : State) (n : LaneId) (l : Lane) (a' : Byte) :
    (s.putLane n l).headLane a' = s.headLane a' := rfl

@[simp] theorem State.putLane_transparent (s : State) (n : LaneId) (l : Lane) :
    (s.putLane n l).transparent = s.transparent := rfl

@[simp] theorem State.putLane_address (s : State) (n : LaneId) (l : Lane) : (s.putLane n l).address = s.address := rfl

@[simp] theorem State.putLane_routeAt (s : State) (n : LaneId) (l : Lane) (i' : Nat) :
    (s.putLane n l).routeAt i' = s.routeAt i' := rfl

@[simp] theorem State.putLane_port (s : State) (n : LaneId) (l : Lane) (p' : Port) :
    (s.putLane n l).port p' = s.port p' := rfl

@[simp] theorem State.putLane_startTimer (s : State) (n : LaneId) (l : Lane) (i' : Nat) :
    (s.putLane n l).startTimer i' = s.startTimer i' := rfl

@[simp] theorem State.putLane_canReserve (s : State) (n : LaneId) (l : Lane) :
    (s.putLane n l).canReserve = s.canReserve := rfl

@[simp] theorem State.putLane_lane_self (s : State) (n : LaneId) (l : Lane) : (s.putLane n l).lane n = l :=
  PerLane.get_set_self _ _ _

@[simp] theorem State.putLane_lane_of_ne (s : State) {n m : LaneId} (l : Lane) (h : m ≠ n) :
    (s.putLane n l).lane m = s.lane m :=
  PerLane.get_set_of_ne _ _ h

@[simp] theorem State.putLane_putLane (s : State) (n : LaneId) (l k : Lane) :
    (s.putLane n l).putLane n k = s.putLane n k := by
  simp [State.putLane]

/-! ### A lane changed by a function -/

@[simp] theorem State.onLane_straps (s : State) (n : LaneId) (f : Lane → Lane) :
    (s.onLane n f).straps = s.straps := rfl

@[simp] theorem State.onLane_held (s : State) (n : LaneId) (f : Lane → Lane) : (s.onLane n f).held = s.held := rfl

@[simp] theorem State.onLane_clock (s : State) (n : LaneId) (f : Lane → Lane) : (s.onLane n f).clock = s.clock := rfl

@[simp] theorem State.onLane_routes (s : State) (n : LaneId) (f : Lane → Lane) :
    (s.onLane n f).routes = s.routes := rfl

@[simp] theorem State.onLane_orders (s : State) (n : LaneId) (f : Lane → Lane) :
    (s.onLane n f).orders = s.orders := rfl

@[simp] theorem State.onLane_records (s : State) (n : LaneId) (f : Lane → Lane) :
    (s.onLane n f).records = s.records := rfl

@[simp] theorem State.onLane_reservations (s : State) (n : LaneId) (f : Lane → Lane) :
    (s.onLane n f).reservations = s.reservations := rfl

@[simp] theorem State.onLane_up (s : State) (n : LaneId) (f : Lane → Lane) : (s.onLane n f).up = s.up := rfl

@[simp] theorem State.onLane_dp (s : State) (n : LaneId) (f : Lane → Lane) : (s.onLane n f).dp = s.dp := rfl

@[simp] theorem State.onLane_controller (s : State) (n : LaneId) (f : Lane → Lane) :
    (s.onLane n f).controller = s.controller := rfl

@[simp] theorem State.onLane_restart (s : State) (n : LaneId) (f : Lane → Lane) :
    (s.onLane n f).restart = s.restart := rfl

@[simp] theorem State.onLane_unanswered (s : State) (n : LaneId) (f : Lane → Lane) :
    (s.onLane n f).unanswered = s.unanswered := rfl

@[simp] theorem State.onLane_wrongPort (s : State) (n : LaneId) (f : Lane → Lane) :
    (s.onLane n f).wrongPort = s.wrongPort := rfl

@[simp] theorem State.onLane_toSwitch (s : State) (n : LaneId) (f : Lane → Lane) :
    (s.onLane n f).toSwitch = s.toSwitch := rfl

@[simp] theorem State.onLane_toLanes (s : State) (n : LaneId) (f : Lane → Lane) :
    (s.onLane n f).toLanes = s.toLanes := rfl

@[simp] theorem State.onLane_toResponder (s : State) (n : LaneId) (f : Lane → Lane) :
    (s.onLane n f).toResponder = s.toResponder := rfl

@[simp] theorem State.onLane_pending (s : State) (n : LaneId) (f : Lane → Lane) :
    (s.onLane n f).pending = s.pending := rfl

@[simp] theorem State.onLane_queue (s : State) (n : LaneId) (f : Lane → Lane) (k : LaneId) :
    (s.onLane n f).queue k = s.queue k := rfl

@[simp] theorem State.onLane_activeOrder (s : State) (n : LaneId) (f : Lane → Lane) (k : LaneId) :
    (s.onLane n f).activeOrder k = s.activeOrder k := rfl

@[simp] theorem State.onLane_headOf (s : State) (n : LaneId) (f : Lane → Lane) (k : LaneId) :
    (s.onLane n f).headOf k = s.headOf k := rfl

@[simp] theorem State.onLane_isolationOf (s : State) (n : LaneId) (f : Lane → Lane) (k : LaneId) :
    (s.onLane n f).isolationOf k = s.isolationOf k := rfl

@[simp] theorem State.onLane_headLane (s : State) (n : LaneId) (f : Lane → Lane) (a' : Byte) :
    (s.onLane n f).headLane a' = s.headLane a' := rfl

@[simp] theorem State.onLane_transparent (s : State) (n : LaneId) (f : Lane → Lane) :
    (s.onLane n f).transparent = s.transparent := rfl

@[simp] theorem State.onLane_address (s : State) (n : LaneId) (f : Lane → Lane) :
    (s.onLane n f).address = s.address := rfl

@[simp] theorem State.onLane_routeAt (s : State) (n : LaneId) (f : Lane → Lane) (i' : Nat) :
    (s.onLane n f).routeAt i' = s.routeAt i' := rfl

@[simp] theorem State.onLane_port (s : State) (n : LaneId) (f : Lane → Lane) (p' : Port) :
    (s.onLane n f).port p' = s.port p' := rfl

@[simp] theorem State.onLane_startTimer (s : State) (n : LaneId) (f : Lane → Lane) (i' : Nat) :
    (s.onLane n f).startTimer i' = s.startTimer i' := rfl

@[simp] theorem State.onLane_canReserve (s : State) (n : LaneId) (f : Lane → Lane) :
    (s.onLane n f).canReserve = s.canReserve := rfl

@[simp] theorem State.onLane_lane_self (s : State) (n : LaneId) (f : Lane → Lane) :
    (s.onLane n f).lane n = f (s.lane n) :=
  PerLane.get_set_self _ _ _

@[simp] theorem State.onLane_lane_of_ne (s : State) {n m : LaneId} (f : Lane → Lane) (h : m ≠ n) :
    (s.onLane n f).lane m = s.lane m :=
  PerLane.get_set_of_ne _ _ h

/-! ### A lane's note slot made pending -/

@[simp] theorem State.raiseNote_straps (s : State) (n : LaneId) : (s.raiseNote n).straps = s.straps := rfl

@[simp] theorem State.raiseNote_held (s : State) (n : LaneId) : (s.raiseNote n).held = s.held := rfl

@[simp] theorem State.raiseNote_clock (s : State) (n : LaneId) : (s.raiseNote n).clock = s.clock := rfl

@[simp] theorem State.raiseNote_routes (s : State) (n : LaneId) : (s.raiseNote n).routes = s.routes := rfl

@[simp] theorem State.raiseNote_lanes (s : State) (n : LaneId) : (s.raiseNote n).lanes = s.lanes := rfl

@[simp] theorem State.raiseNote_orders (s : State) (n : LaneId) : (s.raiseNote n).orders = s.orders := rfl

@[simp] theorem State.raiseNote_records (s : State) (n : LaneId) : (s.raiseNote n).records = s.records := rfl

@[simp] theorem State.raiseNote_reservations (s : State) (n : LaneId) :
    (s.raiseNote n).reservations = s.reservations := rfl

@[simp] theorem State.raiseNote_dp (s : State) (n : LaneId) : (s.raiseNote n).dp = s.dp := rfl

@[simp] theorem State.raiseNote_controller (s : State) (n : LaneId) : (s.raiseNote n).controller = s.controller := rfl

@[simp] theorem State.raiseNote_restart (s : State) (n : LaneId) : (s.raiseNote n).restart = s.restart := rfl

@[simp] theorem State.raiseNote_unanswered (s : State) (n : LaneId) : (s.raiseNote n).unanswered = s.unanswered := rfl

@[simp] theorem State.raiseNote_wrongPort (s : State) (n : LaneId) : (s.raiseNote n).wrongPort = s.wrongPort := rfl

@[simp] theorem State.raiseNote_toSwitch (s : State) (n : LaneId) : (s.raiseNote n).toSwitch = s.toSwitch := rfl

@[simp] theorem State.raiseNote_toLanes (s : State) (n : LaneId) : (s.raiseNote n).toLanes = s.toLanes := rfl

@[simp] theorem State.raiseNote_toResponder (s : State) (n : LaneId) :
    (s.raiseNote n).toResponder = s.toResponder := rfl

@[simp] theorem State.raiseNote_pending (s : State) (n : LaneId) : (s.raiseNote n).pending = s.pending := rfl

@[simp] theorem State.raiseNote_up_common (s : State) (n : LaneId) : (s.raiseNote n).up.common = s.up.common := rfl

@[simp] theorem State.raiseNote_up_sending (s : State) (n : LaneId) : (s.raiseNote n).up.sending = s.up.sending := rfl

@[simp] theorem State.raiseNote_up_forward (s : State) (n : LaneId) : (s.raiseNote n).up.forward = s.up.forward := rfl

@[simp] theorem State.raiseNote_up_replies (s : State) (n : LaneId) : (s.raiseNote n).up.replies = s.up.replies := rfl

@[simp] theorem State.raiseNote_up_lastServed (s : State) (n : LaneId) :
    (s.raiseNote n).up.lastServed = s.up.lastServed := rfl

@[simp] theorem State.raiseNote_up_lastNote (s : State) (n : LaneId) :
    (s.raiseNote n).up.lastNote = s.up.lastNote := rfl

@[simp] theorem State.raiseNote_up_unitNote (s : State) (n : LaneId) :
    (s.raiseNote n).up.unitNote = s.up.unitNote := rfl

@[simp] theorem State.raiseNote_lane (s : State) (n : LaneId) (k : LaneId) : (s.raiseNote n).lane k = s.lane k := rfl

@[simp] theorem State.raiseNote_queue (s : State) (n : LaneId) (k : LaneId) :
    (s.raiseNote n).queue k = s.queue k := rfl

@[simp] theorem State.raiseNote_activeOrder (s : State) (n : LaneId) (k : LaneId) :
    (s.raiseNote n).activeOrder k = s.activeOrder k := rfl

@[simp] theorem State.raiseNote_headOf (s : State) (n : LaneId) (k : LaneId) :
    (s.raiseNote n).headOf k = s.headOf k := rfl

@[simp] theorem State.raiseNote_isolationOf (s : State) (n : LaneId) (k : LaneId) :
    (s.raiseNote n).isolationOf k = s.isolationOf k := rfl

@[simp] theorem State.raiseNote_headLane (s : State) (n : LaneId) (a' : Byte) :
    (s.raiseNote n).headLane a' = s.headLane a' := rfl

@[simp] theorem State.raiseNote_transparent (s : State) (n : LaneId) :
    (s.raiseNote n).transparent = s.transparent := rfl

@[simp] theorem State.raiseNote_address (s : State) (n : LaneId) : (s.raiseNote n).address = s.address := rfl

@[simp] theorem State.raiseNote_routeAt (s : State) (n : LaneId) (i' : Nat) :
    (s.raiseNote n).routeAt i' = s.routeAt i' := rfl

@[simp] theorem State.raiseNote_port (s : State) (n : LaneId) (p' : Port) : (s.raiseNote n).port p' = s.port p' := rfl

@[simp] theorem State.raiseNote_startTimer (s : State) (n : LaneId) (i' : Nat) :
    (s.raiseNote n).startTimer i' = s.startTimer i' := rfl

@[simp] theorem State.raiseNote_canReserve (s : State) (n : LaneId) : (s.raiseNote n).canReserve = s.canReserve := rfl

@[simp] theorem State.raiseNote_laneNotes_self (s : State) (n : LaneId) : (s.raiseNote n).up.laneNotes.get n = true :=
  PerLane.get_set_self _ _ _

@[simp] theorem State.raiseNote_laneNotes_of_ne (s : State) {n m : LaneId} (h : m ≠ n) :
    (s.raiseNote n).up.laneNotes.get m = s.up.laneNotes.get m :=
  PerLane.get_set_of_ne _ _ h

/-! ### The unit's note slot made pending -/

@[simp] theorem State.raiseUnitNote_straps (s : State) : (s.raiseUnitNote).straps = s.straps := rfl

@[simp] theorem State.raiseUnitNote_held (s : State) : (s.raiseUnitNote).held = s.held := rfl

@[simp] theorem State.raiseUnitNote_clock (s : State) : (s.raiseUnitNote).clock = s.clock := rfl

@[simp] theorem State.raiseUnitNote_routes (s : State) : (s.raiseUnitNote).routes = s.routes := rfl

@[simp] theorem State.raiseUnitNote_lanes (s : State) : (s.raiseUnitNote).lanes = s.lanes := rfl

@[simp] theorem State.raiseUnitNote_orders (s : State) : (s.raiseUnitNote).orders = s.orders := rfl

@[simp] theorem State.raiseUnitNote_records (s : State) : (s.raiseUnitNote).records = s.records := rfl

@[simp] theorem State.raiseUnitNote_reservations (s : State) : (s.raiseUnitNote).reservations = s.reservations := rfl

@[simp] theorem State.raiseUnitNote_dp (s : State) : (s.raiseUnitNote).dp = s.dp := rfl

@[simp] theorem State.raiseUnitNote_controller (s : State) : (s.raiseUnitNote).controller = s.controller := rfl

@[simp] theorem State.raiseUnitNote_restart (s : State) : (s.raiseUnitNote).restart = s.restart := rfl

@[simp] theorem State.raiseUnitNote_unanswered (s : State) : (s.raiseUnitNote).unanswered = s.unanswered := rfl

@[simp] theorem State.raiseUnitNote_wrongPort (s : State) : (s.raiseUnitNote).wrongPort = s.wrongPort := rfl

@[simp] theorem State.raiseUnitNote_toSwitch (s : State) : (s.raiseUnitNote).toSwitch = s.toSwitch := rfl

@[simp] theorem State.raiseUnitNote_toLanes (s : State) : (s.raiseUnitNote).toLanes = s.toLanes := rfl

@[simp] theorem State.raiseUnitNote_toResponder (s : State) : (s.raiseUnitNote).toResponder = s.toResponder := rfl

@[simp] theorem State.raiseUnitNote_pending (s : State) : (s.raiseUnitNote).pending = s.pending := rfl

@[simp] theorem State.raiseUnitNote_up_common (s : State) : (s.raiseUnitNote).up.common = s.up.common := rfl

@[simp] theorem State.raiseUnitNote_up_sending (s : State) : (s.raiseUnitNote).up.sending = s.up.sending := rfl

@[simp] theorem State.raiseUnitNote_up_forward (s : State) : (s.raiseUnitNote).up.forward = s.up.forward := rfl

@[simp] theorem State.raiseUnitNote_up_replies (s : State) : (s.raiseUnitNote).up.replies = s.up.replies := rfl

@[simp] theorem State.raiseUnitNote_up_lastServed (s : State) :
    (s.raiseUnitNote).up.lastServed = s.up.lastServed := rfl

@[simp] theorem State.raiseUnitNote_up_lastNote (s : State) : (s.raiseUnitNote).up.lastNote = s.up.lastNote := rfl

@[simp] theorem State.raiseUnitNote_up_laneNotes (s : State) : (s.raiseUnitNote).up.laneNotes = s.up.laneNotes := rfl

@[simp] theorem State.raiseUnitNote_lane (s : State) (k : LaneId) : (s.raiseUnitNote).lane k = s.lane k := rfl

@[simp] theorem State.raiseUnitNote_queue (s : State) (k : LaneId) : (s.raiseUnitNote).queue k = s.queue k := rfl

@[simp] theorem State.raiseUnitNote_activeOrder (s : State) (k : LaneId) :
    (s.raiseUnitNote).activeOrder k = s.activeOrder k := rfl

@[simp] theorem State.raiseUnitNote_headOf (s : State) (k : LaneId) : (s.raiseUnitNote).headOf k = s.headOf k := rfl

@[simp] theorem State.raiseUnitNote_isolationOf (s : State) (k : LaneId) :
    (s.raiseUnitNote).isolationOf k = s.isolationOf k := rfl

@[simp] theorem State.raiseUnitNote_headLane (s : State) (a' : Byte) :
    (s.raiseUnitNote).headLane a' = s.headLane a' := rfl

@[simp] theorem State.raiseUnitNote_transparent (s : State) : (s.raiseUnitNote).transparent = s.transparent := rfl

@[simp] theorem State.raiseUnitNote_address (s : State) : (s.raiseUnitNote).address = s.address := rfl

@[simp] theorem State.raiseUnitNote_routeAt (s : State) (i' : Nat) :
    (s.raiseUnitNote).routeAt i' = s.routeAt i' := rfl

@[simp] theorem State.raiseUnitNote_port (s : State) (p' : Port) : (s.raiseUnitNote).port p' = s.port p' := rfl

@[simp] theorem State.raiseUnitNote_startTimer (s : State) (i' : Nat) :
    (s.raiseUnitNote).startTimer i' = s.startTimer i' := rfl

@[simp] theorem State.raiseUnitNote_canReserve (s : State) : (s.raiseUnitNote).canReserve = s.canReserve := rfl

@[simp] theorem State.raiseUnitNote_up_unitNote (s : State) : s.raiseUnitNote.up.unitNote = true := rfl

/-! ### A change of lane state -/

@[simp] theorem State.enterState_straps (s : State) (n : LaneId) (st : LaneState) :
    (s.enterState n st).straps = s.straps := rfl

@[simp] theorem State.enterState_held (s : State) (n : LaneId) (st : LaneState) :
    (s.enterState n st).held = s.held := rfl

@[simp] theorem State.enterState_clock (s : State) (n : LaneId) (st : LaneState) :
    (s.enterState n st).clock = s.clock := rfl

@[simp] theorem State.enterState_routes (s : State) (n : LaneId) (st : LaneState) :
    (s.enterState n st).routes = s.routes := rfl

@[simp] theorem State.enterState_orders (s : State) (n : LaneId) (st : LaneState) :
    (s.enterState n st).orders = s.orders := rfl

@[simp] theorem State.enterState_records (s : State) (n : LaneId) (st : LaneState) :
    (s.enterState n st).records = s.records := rfl

@[simp] theorem State.enterState_reservations (s : State) (n : LaneId) (st : LaneState) :
    (s.enterState n st).reservations = s.reservations := rfl

@[simp] theorem State.enterState_dp (s : State) (n : LaneId) (st : LaneState) : (s.enterState n st).dp = s.dp := rfl

@[simp] theorem State.enterState_controller (s : State) (n : LaneId) (st : LaneState) :
    (s.enterState n st).controller = s.controller := rfl

@[simp] theorem State.enterState_restart (s : State) (n : LaneId) (st : LaneState) :
    (s.enterState n st).restart = s.restart := rfl

@[simp] theorem State.enterState_unanswered (s : State) (n : LaneId) (st : LaneState) :
    (s.enterState n st).unanswered = s.unanswered := rfl

@[simp] theorem State.enterState_wrongPort (s : State) (n : LaneId) (st : LaneState) :
    (s.enterState n st).wrongPort = s.wrongPort := rfl

@[simp] theorem State.enterState_toSwitch (s : State) (n : LaneId) (st : LaneState) :
    (s.enterState n st).toSwitch = s.toSwitch := rfl

@[simp] theorem State.enterState_toLanes (s : State) (n : LaneId) (st : LaneState) :
    (s.enterState n st).toLanes = s.toLanes := rfl

@[simp] theorem State.enterState_toResponder (s : State) (n : LaneId) (st : LaneState) :
    (s.enterState n st).toResponder = s.toResponder := rfl

@[simp] theorem State.enterState_pending (s : State) (n : LaneId) (st : LaneState) :
    (s.enterState n st).pending = s.pending := rfl

@[simp] theorem State.enterState_up_common (s : State) (n : LaneId) (st : LaneState) :
    (s.enterState n st).up.common = s.up.common := rfl

@[simp] theorem State.enterState_up_sending (s : State) (n : LaneId) (st : LaneState) :
    (s.enterState n st).up.sending = s.up.sending := rfl

@[simp] theorem State.enterState_up_forward (s : State) (n : LaneId) (st : LaneState) :
    (s.enterState n st).up.forward = s.up.forward := rfl

@[simp] theorem State.enterState_up_replies (s : State) (n : LaneId) (st : LaneState) :
    (s.enterState n st).up.replies = s.up.replies := rfl

@[simp] theorem State.enterState_up_lastServed (s : State) (n : LaneId) (st : LaneState) :
    (s.enterState n st).up.lastServed = s.up.lastServed := rfl

@[simp] theorem State.enterState_up_lastNote (s : State) (n : LaneId) (st : LaneState) :
    (s.enterState n st).up.lastNote = s.up.lastNote := rfl

@[simp] theorem State.enterState_up_unitNote (s : State) (n : LaneId) (st : LaneState) :
    (s.enterState n st).up.unitNote = s.up.unitNote := rfl

@[simp] theorem State.enterState_queue (s : State) (n : LaneId) (st : LaneState) (k : LaneId) :
    (s.enterState n st).queue k = s.queue k := rfl

@[simp] theorem State.enterState_activeOrder (s : State) (n : LaneId) (st : LaneState) (k : LaneId) :
    (s.enterState n st).activeOrder k = s.activeOrder k := rfl

@[simp] theorem State.enterState_headOf (s : State) (n : LaneId) (st : LaneState) (k : LaneId) :
    (s.enterState n st).headOf k = s.headOf k := rfl

@[simp] theorem State.enterState_isolationOf (s : State) (n : LaneId) (st : LaneState) (k : LaneId) :
    (s.enterState n st).isolationOf k = s.isolationOf k := rfl

@[simp] theorem State.enterState_headLane (s : State) (n : LaneId) (st : LaneState) (a' : Byte) :
    (s.enterState n st).headLane a' = s.headLane a' := rfl

@[simp] theorem State.enterState_transparent (s : State) (n : LaneId) (st : LaneState) :
    (s.enterState n st).transparent = s.transparent := rfl

@[simp] theorem State.enterState_address (s : State) (n : LaneId) (st : LaneState) :
    (s.enterState n st).address = s.address := rfl

@[simp] theorem State.enterState_routeAt (s : State) (n : LaneId) (st : LaneState) (i' : Nat) :
    (s.enterState n st).routeAt i' = s.routeAt i' := rfl

@[simp] theorem State.enterState_port (s : State) (n : LaneId) (st : LaneState) (p' : Port) :
    (s.enterState n st).port p' = s.port p' := rfl

@[simp] theorem State.enterState_startTimer (s : State) (n : LaneId) (st : LaneState) (i' : Nat) :
    (s.enterState n st).startTimer i' = s.startTimer i' := rfl

@[simp] theorem State.enterState_canReserve (s : State) (n : LaneId) (st : LaneState) :
    (s.enterState n st).canReserve = s.canReserve := rfl

@[simp] theorem State.enterState_lane_self (s : State) (n : LaneId) (st : LaneState) :
    (s.enterState n st).lane n = (s.lane n).onSeq fun q => { q with state := st } :=
  PerLane.get_set_self _ _ _

@[simp] theorem State.enterState_lane_of_ne (s : State) {n m : LaneId} (st : LaneState) (h : m ≠ n) :
    (s.enterState n st).lane m = s.lane m :=
  PerLane.get_set_of_ne _ _ h

@[simp] theorem State.enterState_laneNotes_self (s : State) (n : LaneId) (st : LaneState) :
    (s.enterState n st).up.laneNotes.get n = true :=
  PerLane.get_set_self _ _ _

@[simp] theorem State.enterState_laneNotes_of_ne (s : State) {n m : LaneId} (st : LaneState) (h : m ≠ n) :
    (s.enterState n st).up.laneNotes.get m = s.up.laneNotes.get m :=
  PerLane.get_set_of_ne _ _ h

/-! ### A lane's hold cause set -/

@[simp] theorem State.setHold_straps (s : State) (n : LaneId) (h : HoldCause) :
    (s.setHold n h).straps = s.straps := rfl

@[simp] theorem State.setHold_held (s : State) (n : LaneId) (h : HoldCause) : (s.setHold n h).held = s.held := rfl

@[simp] theorem State.setHold_clock (s : State) (n : LaneId) (h : HoldCause) : (s.setHold n h).clock = s.clock := rfl

@[simp] theorem State.setHold_routes (s : State) (n : LaneId) (h : HoldCause) :
    (s.setHold n h).routes = s.routes := rfl

@[simp] theorem State.setHold_orders (s : State) (n : LaneId) (h : HoldCause) :
    (s.setHold n h).orders = s.orders := rfl

@[simp] theorem State.setHold_records (s : State) (n : LaneId) (h : HoldCause) :
    (s.setHold n h).records = s.records := rfl

@[simp] theorem State.setHold_reservations (s : State) (n : LaneId) (h : HoldCause) :
    (s.setHold n h).reservations = s.reservations := rfl

@[simp] theorem State.setHold_up (s : State) (n : LaneId) (h : HoldCause) : (s.setHold n h).up = s.up := rfl

@[simp] theorem State.setHold_dp (s : State) (n : LaneId) (h : HoldCause) : (s.setHold n h).dp = s.dp := rfl

@[simp] theorem State.setHold_controller (s : State) (n : LaneId) (h : HoldCause) :
    (s.setHold n h).controller = s.controller := rfl

@[simp] theorem State.setHold_restart (s : State) (n : LaneId) (h : HoldCause) :
    (s.setHold n h).restart = s.restart := rfl

@[simp] theorem State.setHold_unanswered (s : State) (n : LaneId) (h : HoldCause) :
    (s.setHold n h).unanswered = s.unanswered := rfl

@[simp] theorem State.setHold_wrongPort (s : State) (n : LaneId) (h : HoldCause) :
    (s.setHold n h).wrongPort = s.wrongPort := rfl

@[simp] theorem State.setHold_toSwitch (s : State) (n : LaneId) (h : HoldCause) :
    (s.setHold n h).toSwitch = s.toSwitch := rfl

@[simp] theorem State.setHold_toLanes (s : State) (n : LaneId) (h : HoldCause) :
    (s.setHold n h).toLanes = s.toLanes := rfl

@[simp] theorem State.setHold_toResponder (s : State) (n : LaneId) (h : HoldCause) :
    (s.setHold n h).toResponder = s.toResponder := rfl

@[simp] theorem State.setHold_pending (s : State) (n : LaneId) (h : HoldCause) :
    (s.setHold n h).pending = s.pending := rfl

@[simp] theorem State.setHold_queue (s : State) (n : LaneId) (h : HoldCause) (k : LaneId) :
    (s.setHold n h).queue k = s.queue k := rfl

@[simp] theorem State.setHold_activeOrder (s : State) (n : LaneId) (h : HoldCause) (k : LaneId) :
    (s.setHold n h).activeOrder k = s.activeOrder k := rfl

@[simp] theorem State.setHold_headOf (s : State) (n : LaneId) (h : HoldCause) (k : LaneId) :
    (s.setHold n h).headOf k = s.headOf k := rfl

@[simp] theorem State.setHold_isolationOf (s : State) (n : LaneId) (h : HoldCause) (k : LaneId) :
    (s.setHold n h).isolationOf k = s.isolationOf k := rfl

@[simp] theorem State.setHold_headLane (s : State) (n : LaneId) (h : HoldCause) (a' : Byte) :
    (s.setHold n h).headLane a' = s.headLane a' := rfl

@[simp] theorem State.setHold_transparent (s : State) (n : LaneId) (h : HoldCause) :
    (s.setHold n h).transparent = s.transparent := rfl

@[simp] theorem State.setHold_address (s : State) (n : LaneId) (h : HoldCause) :
    (s.setHold n h).address = s.address := rfl

@[simp] theorem State.setHold_routeAt (s : State) (n : LaneId) (h : HoldCause) (i' : Nat) :
    (s.setHold n h).routeAt i' = s.routeAt i' := rfl

@[simp] theorem State.setHold_port (s : State) (n : LaneId) (h : HoldCause) (p' : Port) :
    (s.setHold n h).port p' = s.port p' := rfl

@[simp] theorem State.setHold_startTimer (s : State) (n : LaneId) (h : HoldCause) (i' : Nat) :
    (s.setHold n h).startTimer i' = s.startTimer i' := rfl

@[simp] theorem State.setHold_canReserve (s : State) (n : LaneId) (h : HoldCause) :
    (s.setHold n h).canReserve = s.canReserve := rfl

@[simp] theorem State.setHold_lane_self (s : State) (n : LaneId) (h : HoldCause) :
    (s.setHold n h).lane n = (s.lane n).onSeq fun q => { q with holdCause := h } :=
  PerLane.get_set_self _ _ _

@[simp] theorem State.setHold_lane_of_ne (s : State) {n m : LaneId} (c : HoldCause) (h : m ≠ n) :
    (s.setHold n c).lane m = s.lane m :=
  PerLane.get_set_of_ne _ _ h

/-! ### A lane's queue replaced -/

@[simp] theorem State.putQueue_straps (s : State) (n : LaneId) (q : List Order) :
    (s.putQueue n q).straps = s.straps := rfl

@[simp] theorem State.putQueue_held (s : State) (n : LaneId) (q : List Order) : (s.putQueue n q).held = s.held := rfl

@[simp] theorem State.putQueue_clock (s : State) (n : LaneId) (q : List Order) :
    (s.putQueue n q).clock = s.clock := rfl

@[simp] theorem State.putQueue_routes (s : State) (n : LaneId) (q : List Order) :
    (s.putQueue n q).routes = s.routes := rfl

@[simp] theorem State.putQueue_lanes (s : State) (n : LaneId) (q : List Order) :
    (s.putQueue n q).lanes = s.lanes := rfl

@[simp] theorem State.putQueue_records (s : State) (n : LaneId) (q : List Order) :
    (s.putQueue n q).records = s.records := rfl

@[simp] theorem State.putQueue_reservations (s : State) (n : LaneId) (q : List Order) :
    (s.putQueue n q).reservations = s.reservations := rfl

@[simp] theorem State.putQueue_up (s : State) (n : LaneId) (q : List Order) : (s.putQueue n q).up = s.up := rfl

@[simp] theorem State.putQueue_dp (s : State) (n : LaneId) (q : List Order) : (s.putQueue n q).dp = s.dp := rfl

@[simp] theorem State.putQueue_controller (s : State) (n : LaneId) (q : List Order) :
    (s.putQueue n q).controller = s.controller := rfl

@[simp] theorem State.putQueue_restart (s : State) (n : LaneId) (q : List Order) :
    (s.putQueue n q).restart = s.restart := rfl

@[simp] theorem State.putQueue_unanswered (s : State) (n : LaneId) (q : List Order) :
    (s.putQueue n q).unanswered = s.unanswered := rfl

@[simp] theorem State.putQueue_wrongPort (s : State) (n : LaneId) (q : List Order) :
    (s.putQueue n q).wrongPort = s.wrongPort := rfl

@[simp] theorem State.putQueue_toSwitch (s : State) (n : LaneId) (q : List Order) :
    (s.putQueue n q).toSwitch = s.toSwitch := rfl

@[simp] theorem State.putQueue_toLanes (s : State) (n : LaneId) (q : List Order) :
    (s.putQueue n q).toLanes = s.toLanes := rfl

@[simp] theorem State.putQueue_toResponder (s : State) (n : LaneId) (q : List Order) :
    (s.putQueue n q).toResponder = s.toResponder := rfl

@[simp] theorem State.putQueue_pending (s : State) (n : LaneId) (q : List Order) :
    (s.putQueue n q).pending = s.pending := rfl

@[simp] theorem State.putQueue_lane (s : State) (n : LaneId) (q : List Order) (k : LaneId) :
    (s.putQueue n q).lane k = s.lane k := rfl

@[simp] theorem State.putQueue_headOf (s : State) (n : LaneId) (q : List Order) (k : LaneId) :
    (s.putQueue n q).headOf k = s.headOf k := rfl

@[simp] theorem State.putQueue_isolationOf (s : State) (n : LaneId) (q : List Order) (k : LaneId) :
    (s.putQueue n q).isolationOf k = s.isolationOf k := rfl

@[simp] theorem State.putQueue_headLane (s : State) (n : LaneId) (q : List Order) (a' : Byte) :
    (s.putQueue n q).headLane a' = s.headLane a' := rfl

@[simp] theorem State.putQueue_transparent (s : State) (n : LaneId) (q : List Order) :
    (s.putQueue n q).transparent = s.transparent := rfl

@[simp] theorem State.putQueue_address (s : State) (n : LaneId) (q : List Order) :
    (s.putQueue n q).address = s.address := rfl

@[simp] theorem State.putQueue_routeAt (s : State) (n : LaneId) (q : List Order) (i' : Nat) :
    (s.putQueue n q).routeAt i' = s.routeAt i' := rfl

@[simp] theorem State.putQueue_port (s : State) (n : LaneId) (q : List Order) (p' : Port) :
    (s.putQueue n q).port p' = s.port p' := rfl

@[simp] theorem State.putQueue_startTimer (s : State) (n : LaneId) (q : List Order) (i' : Nat) :
    (s.putQueue n q).startTimer i' = s.startTimer i' := rfl

@[simp] theorem State.putQueue_canReserve (s : State) (n : LaneId) (q : List Order) :
    (s.putQueue n q).canReserve = s.canReserve := rfl

@[simp] theorem State.putQueue_queue_self (s : State) (n : LaneId) (q : List Order) : (s.putQueue n q).queue n = q :=
  PerLane.get_set_self _ _ _

@[simp] theorem State.putQueue_queue_of_ne (s : State) {n m : LaneId} (q : List Order) (h : m ≠ n) :
    (s.putQueue n q).queue m = s.queue m :=
  PerLane.get_set_of_ne _ _ h

/-! ### A position command withdrawn -/

@[simp] theorem State.withdrawPosition_straps (s : State) (n : LaneId) :
    (s.withdrawPosition n).straps = s.straps := rfl

@[simp] theorem State.withdrawPosition_held (s : State) (n : LaneId) : (s.withdrawPosition n).held = s.held := rfl

@[simp] theorem State.withdrawPosition_clock (s : State) (n : LaneId) : (s.withdrawPosition n).clock = s.clock := rfl

@[simp] theorem State.withdrawPosition_routes (s : State) (n : LaneId) :
    (s.withdrawPosition n).routes = s.routes := rfl

@[simp] theorem State.withdrawPosition_lanes (s : State) (n : LaneId) : (s.withdrawPosition n).lanes = s.lanes := rfl

@[simp] theorem State.withdrawPosition_orders (s : State) (n : LaneId) :
    (s.withdrawPosition n).orders = s.orders := rfl

@[simp] theorem State.withdrawPosition_records (s : State) (n : LaneId) :
    (s.withdrawPosition n).records = s.records := rfl

@[simp] theorem State.withdrawPosition_reservations (s : State) (n : LaneId) :
    (s.withdrawPosition n).reservations = s.reservations := rfl

@[simp] theorem State.withdrawPosition_up (s : State) (n : LaneId) : (s.withdrawPosition n).up = s.up := rfl

@[simp] theorem State.withdrawPosition_controller (s : State) (n : LaneId) :
    (s.withdrawPosition n).controller = s.controller := rfl

@[simp] theorem State.withdrawPosition_restart (s : State) (n : LaneId) :
    (s.withdrawPosition n).restart = s.restart := rfl

@[simp] theorem State.withdrawPosition_unanswered (s : State) (n : LaneId) :
    (s.withdrawPosition n).unanswered = s.unanswered := rfl

@[simp] theorem State.withdrawPosition_wrongPort (s : State) (n : LaneId) :
    (s.withdrawPosition n).wrongPort = s.wrongPort := rfl

@[simp] theorem State.withdrawPosition_toSwitch (s : State) (n : LaneId) :
    (s.withdrawPosition n).toSwitch = s.toSwitch := rfl

@[simp] theorem State.withdrawPosition_toLanes (s : State) (n : LaneId) :
    (s.withdrawPosition n).toLanes = s.toLanes := rfl

@[simp] theorem State.withdrawPosition_toResponder (s : State) (n : LaneId) :
    (s.withdrawPosition n).toResponder = s.toResponder := rfl

@[simp] theorem State.withdrawPosition_pending (s : State) (n : LaneId) :
    (s.withdrawPosition n).pending = s.pending := rfl

@[simp] theorem State.withdrawPosition_dp_common (s : State) (n : LaneId) :
    (s.withdrawPosition n).dp.common = s.dp.common := rfl

@[simp] theorem State.withdrawPosition_dp_sending (s : State) (n : LaneId) :
    (s.withdrawPosition n).dp.sending = s.dp.sending := rfl

@[simp] theorem State.withdrawPosition_dp_forward (s : State) (n : LaneId) :
    (s.withdrawPosition n).dp.forward = s.dp.forward := rfl

@[simp] theorem State.withdrawPosition_dp_urgent (s : State) (n : LaneId) :
    (s.withdrawPosition n).dp.urgent = s.dp.urgent := rfl

@[simp] theorem State.withdrawPosition_dp_lastServed (s : State) (n : LaneId) :
    (s.withdrawPosition n).dp.lastServed = s.dp.lastServed := rfl

@[simp] theorem State.withdrawPosition_dp_lastLane (s : State) (n : LaneId) :
    (s.withdrawPosition n).dp.lastLane = s.dp.lastLane := rfl

@[simp] theorem State.withdrawPosition_lane (s : State) (n : LaneId) (k : LaneId) :
    (s.withdrawPosition n).lane k = s.lane k := rfl

@[simp] theorem State.withdrawPosition_queue (s : State) (n : LaneId) (k : LaneId) :
    (s.withdrawPosition n).queue k = s.queue k := rfl

@[simp] theorem State.withdrawPosition_activeOrder (s : State) (n : LaneId) (k : LaneId) :
    (s.withdrawPosition n).activeOrder k = s.activeOrder k := rfl

@[simp] theorem State.withdrawPosition_headOf (s : State) (n : LaneId) (k : LaneId) :
    (s.withdrawPosition n).headOf k = s.headOf k := rfl

@[simp] theorem State.withdrawPosition_isolationOf (s : State) (n : LaneId) (k : LaneId) :
    (s.withdrawPosition n).isolationOf k = s.isolationOf k := rfl

@[simp] theorem State.withdrawPosition_headLane (s : State) (n : LaneId) (a' : Byte) :
    (s.withdrawPosition n).headLane a' = s.headLane a' := rfl

@[simp] theorem State.withdrawPosition_transparent (s : State) (n : LaneId) :
    (s.withdrawPosition n).transparent = s.transparent := rfl

@[simp] theorem State.withdrawPosition_address (s : State) (n : LaneId) :
    (s.withdrawPosition n).address = s.address := rfl

@[simp] theorem State.withdrawPosition_routeAt (s : State) (n : LaneId) (i' : Nat) :
    (s.withdrawPosition n).routeAt i' = s.routeAt i' := rfl

@[simp] theorem State.withdrawPosition_port (s : State) (n : LaneId) (p' : Port) :
    (s.withdrawPosition n).port p' = s.port p' := rfl

@[simp] theorem State.withdrawPosition_startTimer (s : State) (n : LaneId) (i' : Nat) :
    (s.withdrawPosition n).startTimer i' = s.startTimer i' := rfl

@[simp] theorem State.withdrawPosition_canReserve (s : State) (n : LaneId) :
    (s.withdrawPosition n).canReserve = s.canReserve := rfl

@[simp] theorem State.withdrawPosition_slots_self (s : State) (n : LaneId) :
    (s.withdrawPosition n).dp.slots.get n = none :=
  PerLane.get_set_self _ _ _

@[simp] theorem State.withdrawPosition_slots_of_ne (s : State) {n m : LaneId} (h : m ≠ n) :
    (s.withdrawPosition n).dp.slots.get m = s.dp.slots.get m :=
  PerLane.get_set_of_ne _ _ h

/-! ### A reply placed -/

@[simp] theorem State.queueReply_straps (s : State) (src kind tagHi tagLo : Byte) (st : Status) (results : List Byte) :
    (s.queueReply src kind tagHi tagLo st results).straps = s.straps := rfl

@[simp] theorem State.queueReply_held (s : State) (src kind tagHi tagLo : Byte) (st : Status) (results : List Byte) :
    (s.queueReply src kind tagHi tagLo st results).held = s.held := rfl

@[simp] theorem State.queueReply_clock (s : State) (src kind tagHi tagLo : Byte) (st : Status) (results : List Byte) :
    (s.queueReply src kind tagHi tagLo st results).clock = s.clock := rfl

@[simp] theorem State.queueReply_routes (s : State) (src kind tagHi tagLo : Byte) (st : Status) (results : List Byte) :
    (s.queueReply src kind tagHi tagLo st results).routes = s.routes := rfl

@[simp] theorem State.queueReply_lanes (s : State) (src kind tagHi tagLo : Byte) (st : Status) (results : List Byte) :
    (s.queueReply src kind tagHi tagLo st results).lanes = s.lanes := rfl

@[simp] theorem State.queueReply_orders (s : State) (src kind tagHi tagLo : Byte) (st : Status) (results : List Byte) :
    (s.queueReply src kind tagHi tagLo st results).orders = s.orders := rfl

@[simp] theorem State.queueReply_records (s : State) (src kind tagHi tagLo : Byte) (st : Status) (results : List Byte) :
    (s.queueReply src kind tagHi tagLo st results).records = s.records := rfl

@[simp] theorem State.queueReply_reservations (s : State) (src kind tagHi tagLo : Byte) (st : Status) (results : List Byte) :
    (s.queueReply src kind tagHi tagLo st results).reservations = s.reservations := rfl

@[simp] theorem State.queueReply_dp (s : State) (src kind tagHi tagLo : Byte) (st : Status) (results : List Byte) :
    (s.queueReply src kind tagHi tagLo st results).dp = s.dp := rfl

@[simp] theorem State.queueReply_controller (s : State) (src kind tagHi tagLo : Byte) (st : Status) (results : List Byte) :
    (s.queueReply src kind tagHi tagLo st results).controller = s.controller := rfl

@[simp] theorem State.queueReply_restart (s : State) (src kind tagHi tagLo : Byte) (st : Status) (results : List Byte) :
    (s.queueReply src kind tagHi tagLo st results).restart = s.restart := rfl

@[simp] theorem State.queueReply_unanswered (s : State) (src kind tagHi tagLo : Byte) (st : Status) (results : List Byte) :
    (s.queueReply src kind tagHi tagLo st results).unanswered = s.unanswered := rfl

@[simp] theorem State.queueReply_wrongPort (s : State) (src kind tagHi tagLo : Byte) (st : Status) (results : List Byte) :
    (s.queueReply src kind tagHi tagLo st results).wrongPort = s.wrongPort := rfl

@[simp] theorem State.queueReply_toSwitch (s : State) (src kind tagHi tagLo : Byte) (st : Status) (results : List Byte) :
    (s.queueReply src kind tagHi tagLo st results).toSwitch = s.toSwitch := rfl

@[simp] theorem State.queueReply_toLanes (s : State) (src kind tagHi tagLo : Byte) (st : Status) (results : List Byte) :
    (s.queueReply src kind tagHi tagLo st results).toLanes = s.toLanes := rfl

@[simp] theorem State.queueReply_toResponder (s : State) (src kind tagHi tagLo : Byte) (st : Status) (results : List Byte) :
    (s.queueReply src kind tagHi tagLo st results).toResponder = s.toResponder := rfl

@[simp] theorem State.queueReply_pending (s : State) (src kind tagHi tagLo : Byte) (st : Status) (results : List Byte) :
    (s.queueReply src kind tagHi tagLo st results).pending = s.pending := rfl

@[simp] theorem State.queueReply_up_common (s : State) (src kind tagHi tagLo : Byte) (st : Status) (results : List Byte) :
    (s.queueReply src kind tagHi tagLo st results).up.common = s.up.common := rfl

@[simp] theorem State.queueReply_up_sending (s : State) (src kind tagHi tagLo : Byte) (st : Status) (results : List Byte) :
    (s.queueReply src kind tagHi tagLo st results).up.sending = s.up.sending := rfl

@[simp] theorem State.queueReply_up_forward (s : State) (src kind tagHi tagLo : Byte) (st : Status) (results : List Byte) :
    (s.queueReply src kind tagHi tagLo st results).up.forward = s.up.forward := rfl

@[simp] theorem State.queueReply_up_lastServed (s : State) (src kind tagHi tagLo : Byte) (st : Status) (results : List Byte) :
    (s.queueReply src kind tagHi tagLo st results).up.lastServed = s.up.lastServed := rfl

@[simp] theorem State.queueReply_up_lastNote (s : State) (src kind tagHi tagLo : Byte) (st : Status) (results : List Byte) :
    (s.queueReply src kind tagHi tagLo st results).up.lastNote = s.up.lastNote := rfl

@[simp] theorem State.queueReply_up_laneNotes (s : State) (src kind tagHi tagLo : Byte) (st : Status) (results : List Byte) :
    (s.queueReply src kind tagHi tagLo st results).up.laneNotes = s.up.laneNotes := rfl

@[simp] theorem State.queueReply_up_unitNote (s : State) (src kind tagHi tagLo : Byte) (st : Status) (results : List Byte) :
    (s.queueReply src kind tagHi tagLo st results).up.unitNote = s.up.unitNote := rfl

@[simp] theorem State.queueReply_lane (s : State) (src kind tagHi tagLo : Byte) (st : Status) (results : List Byte) (k : LaneId) :
    (s.queueReply src kind tagHi tagLo st results).lane k = s.lane k := rfl

@[simp] theorem State.queueReply_queue (s : State) (src kind tagHi tagLo : Byte) (st : Status) (results : List Byte) (k : LaneId) :
    (s.queueReply src kind tagHi tagLo st results).queue k = s.queue k := rfl

@[simp] theorem State.queueReply_activeOrder (s : State) (src kind tagHi tagLo : Byte) (st : Status) (results : List Byte) (k : LaneId) :
    (s.queueReply src kind tagHi tagLo st results).activeOrder k = s.activeOrder k := rfl

@[simp] theorem State.queueReply_headOf (s : State) (src kind tagHi tagLo : Byte) (st : Status) (results : List Byte) (k : LaneId) :
    (s.queueReply src kind tagHi tagLo st results).headOf k = s.headOf k := rfl

@[simp] theorem State.queueReply_isolationOf (s : State) (src kind tagHi tagLo : Byte) (st : Status) (results : List Byte) (k : LaneId) :
    (s.queueReply src kind tagHi tagLo st results).isolationOf k = s.isolationOf k := rfl

@[simp] theorem State.queueReply_headLane (s : State) (src kind tagHi tagLo : Byte) (st : Status) (results : List Byte) (a' : Byte) :
    (s.queueReply src kind tagHi tagLo st results).headLane a' = s.headLane a' := rfl

@[simp] theorem State.queueReply_transparent (s : State) (src kind tagHi tagLo : Byte) (st : Status) (results : List Byte) :
    (s.queueReply src kind tagHi tagLo st results).transparent = s.transparent := rfl

@[simp] theorem State.queueReply_address (s : State) (src kind tagHi tagLo : Byte) (st : Status) (results : List Byte) :
    (s.queueReply src kind tagHi tagLo st results).address = s.address := rfl

@[simp] theorem State.queueReply_routeAt (s : State) (src kind tagHi tagLo : Byte) (st : Status) (results : List Byte) (i' : Nat) :
    (s.queueReply src kind tagHi tagLo st results).routeAt i' = s.routeAt i' := rfl

@[simp] theorem State.queueReply_port (s : State) (src kind tagHi tagLo : Byte) (st : Status) (results : List Byte) (p' : Port) :
    (s.queueReply src kind tagHi tagLo st results).port p' = s.port p' := rfl

@[simp] theorem State.queueReply_startTimer (s : State) (src kind tagHi tagLo : Byte) (st : Status) (results : List Byte) (i' : Nat) :
    (s.queueReply src kind tagHi tagLo st results).startTimer i' = s.startTimer i' := rfl

@[simp] theorem State.queueReply_canReserve (s : State) (src kind tagHi tagLo : Byte) (st : Status) (results : List Byte) :
    (s.queueReply src kind tagHi tagLo st results).canReserve = s.canReserve := rfl

@[simp] theorem State.queueReply_up_replies (s : State) (src kind tagHi tagLo : Byte) (st : Status) (results : List Byte) :
    (s.queueReply src kind tagHi tagLo st results).up.replies =
      s.up.replies ++ [{ dest := src, payload := replyPayload kind tagHi tagLo st results }] :=
  rfl

/-! ### A route entry replaced -/

@[simp] theorem State.putRoute_straps (s : State) (i : Nat) (e : Option RouteEntry) :
    (s.putRoute i e).straps = s.straps := rfl

@[simp] theorem State.putRoute_held (s : State) (i : Nat) (e : Option RouteEntry) :
    (s.putRoute i e).held = s.held := rfl

@[simp] theorem State.putRoute_clock (s : State) (i : Nat) (e : Option RouteEntry) :
    (s.putRoute i e).clock = s.clock := rfl

@[simp] theorem State.putRoute_lanes (s : State) (i : Nat) (e : Option RouteEntry) :
    (s.putRoute i e).lanes = s.lanes := rfl

@[simp] theorem State.putRoute_orders (s : State) (i : Nat) (e : Option RouteEntry) :
    (s.putRoute i e).orders = s.orders := rfl

@[simp] theorem State.putRoute_records (s : State) (i : Nat) (e : Option RouteEntry) :
    (s.putRoute i e).records = s.records := rfl

@[simp] theorem State.putRoute_reservations (s : State) (i : Nat) (e : Option RouteEntry) :
    (s.putRoute i e).reservations = s.reservations := rfl

@[simp] theorem State.putRoute_up (s : State) (i : Nat) (e : Option RouteEntry) : (s.putRoute i e).up = s.up := rfl

@[simp] theorem State.putRoute_dp (s : State) (i : Nat) (e : Option RouteEntry) : (s.putRoute i e).dp = s.dp := rfl

@[simp] theorem State.putRoute_controller (s : State) (i : Nat) (e : Option RouteEntry) :
    (s.putRoute i e).controller = s.controller := rfl

@[simp] theorem State.putRoute_restart (s : State) (i : Nat) (e : Option RouteEntry) :
    (s.putRoute i e).restart = s.restart := rfl

@[simp] theorem State.putRoute_unanswered (s : State) (i : Nat) (e : Option RouteEntry) :
    (s.putRoute i e).unanswered = s.unanswered := rfl

@[simp] theorem State.putRoute_wrongPort (s : State) (i : Nat) (e : Option RouteEntry) :
    (s.putRoute i e).wrongPort = s.wrongPort := rfl

@[simp] theorem State.putRoute_toSwitch (s : State) (i : Nat) (e : Option RouteEntry) :
    (s.putRoute i e).toSwitch = s.toSwitch := rfl

@[simp] theorem State.putRoute_toLanes (s : State) (i : Nat) (e : Option RouteEntry) :
    (s.putRoute i e).toLanes = s.toLanes := rfl

@[simp] theorem State.putRoute_toResponder (s : State) (i : Nat) (e : Option RouteEntry) :
    (s.putRoute i e).toResponder = s.toResponder := rfl

@[simp] theorem State.putRoute_pending (s : State) (i : Nat) (e : Option RouteEntry) :
    (s.putRoute i e).pending = s.pending := rfl

@[simp] theorem State.putRoute_lane (s : State) (i : Nat) (e : Option RouteEntry) (k : LaneId) :
    (s.putRoute i e).lane k = s.lane k := rfl

@[simp] theorem State.putRoute_queue (s : State) (i : Nat) (e : Option RouteEntry) (k : LaneId) :
    (s.putRoute i e).queue k = s.queue k := rfl

@[simp] theorem State.putRoute_activeOrder (s : State) (i : Nat) (e : Option RouteEntry) (k : LaneId) :
    (s.putRoute i e).activeOrder k = s.activeOrder k := rfl

@[simp] theorem State.putRoute_transparent (s : State) (i : Nat) (e : Option RouteEntry) :
    (s.putRoute i e).transparent = s.transparent := rfl

@[simp] theorem State.putRoute_address (s : State) (i : Nat) (e : Option RouteEntry) :
    (s.putRoute i e).address = s.address := rfl

@[simp] theorem State.putRoute_port (s : State) (i : Nat) (e : Option RouteEntry) (p' : Port) :
    (s.putRoute i e).port p' = s.port p' := rfl

@[simp] theorem State.putRoute_startTimer (s : State) (i : Nat) (e : Option RouteEntry) (i' : Nat) :
    (s.putRoute i e).startTimer i' = s.startTimer i' := rfl

@[simp] theorem State.putRoute_canReserve (s : State) (i : Nat) (e : Option RouteEntry) :
    (s.putRoute i e).canReserve = s.canReserve := rfl

/-! ### A request discarded -/

@[simp] theorem State.discardRequest_straps (s : State) : (s.discardRequest).straps = s.straps := rfl

@[simp] theorem State.discardRequest_held (s : State) : (s.discardRequest).held = s.held := rfl

@[simp] theorem State.discardRequest_clock (s : State) : (s.discardRequest).clock = s.clock := rfl

@[simp] theorem State.discardRequest_routes (s : State) : (s.discardRequest).routes = s.routes := rfl

@[simp] theorem State.discardRequest_lanes (s : State) : (s.discardRequest).lanes = s.lanes := rfl

@[simp] theorem State.discardRequest_orders (s : State) : (s.discardRequest).orders = s.orders := rfl

@[simp] theorem State.discardRequest_records (s : State) : (s.discardRequest).records = s.records := rfl

@[simp] theorem State.discardRequest_reservations (s : State) :
    (s.discardRequest).reservations = s.reservations := rfl

@[simp] theorem State.discardRequest_up (s : State) : (s.discardRequest).up = s.up := rfl

@[simp] theorem State.discardRequest_dp (s : State) : (s.discardRequest).dp = s.dp := rfl

@[simp] theorem State.discardRequest_controller (s : State) : (s.discardRequest).controller = s.controller := rfl

@[simp] theorem State.discardRequest_restart (s : State) : (s.discardRequest).restart = s.restart := rfl

@[simp] theorem State.discardRequest_wrongPort (s : State) : (s.discardRequest).wrongPort = s.wrongPort := rfl

@[simp] theorem State.discardRequest_toSwitch (s : State) : (s.discardRequest).toSwitch = s.toSwitch := rfl

@[simp] theorem State.discardRequest_toLanes (s : State) : (s.discardRequest).toLanes = s.toLanes := rfl

@[simp] theorem State.discardRequest_toResponder (s : State) : (s.discardRequest).toResponder = s.toResponder := rfl

@[simp] theorem State.discardRequest_pending (s : State) : (s.discardRequest).pending = s.pending := rfl

@[simp] theorem State.discardRequest_lane (s : State) (k : LaneId) : (s.discardRequest).lane k = s.lane k := rfl

@[simp] theorem State.discardRequest_queue (s : State) (k : LaneId) : (s.discardRequest).queue k = s.queue k := rfl

@[simp] theorem State.discardRequest_activeOrder (s : State) (k : LaneId) :
    (s.discardRequest).activeOrder k = s.activeOrder k := rfl

@[simp] theorem State.discardRequest_headOf (s : State) (k : LaneId) : (s.discardRequest).headOf k = s.headOf k := rfl

@[simp] theorem State.discardRequest_isolationOf (s : State) (k : LaneId) :
    (s.discardRequest).isolationOf k = s.isolationOf k := rfl

@[simp] theorem State.discardRequest_headLane (s : State) (a' : Byte) :
    (s.discardRequest).headLane a' = s.headLane a' := rfl

@[simp] theorem State.discardRequest_transparent (s : State) : (s.discardRequest).transparent = s.transparent := rfl

@[simp] theorem State.discardRequest_address (s : State) : (s.discardRequest).address = s.address := rfl

@[simp] theorem State.discardRequest_routeAt (s : State) (i' : Nat) :
    (s.discardRequest).routeAt i' = s.routeAt i' := rfl

@[simp] theorem State.discardRequest_port (s : State) (p' : Port) : (s.discardRequest).port p' = s.port p' := rfl

@[simp] theorem State.discardRequest_startTimer (s : State) (i' : Nat) :
    (s.discardRequest).startTimer i' = s.startTimer i' := rfl

@[simp] theorem State.discardRequest_canReserve (s : State) : (s.discardRequest).canReserve = s.canReserve := rfl

end Sys2Proof.Machine
end

