-- ==== Sys2Proof/Laws/Frame.lean ====
section
/-! SUPPORT. The frame of the lane operations: what an operation on lane `n` can touch, said once per operation. -/

namespace Sys2Proof.Machine

/-- `t` differs from `s` at most in the lanes of `P`: their engine, queue, note slot, position slot and new urgent
entries for them; and in the record store. -/
structure State.OnlyLanes (P : LaneId → Prop) (s t : State) : Prop where
  straps : t.straps = s.straps
  held : t.held = s.held
  clock : t.clock = s.clock
  routes : t.routes = s.routes
  controller : t.controller = s.controller
  restart : t.restart = s.restart
  unanswered : t.unanswered = s.unanswered
  wrongPort : t.wrongPort = s.wrongPort
  toSwitch : t.toSwitch = s.toSwitch
  toLanes : t.toLanes = s.toLanes
  toResponder : t.toResponder = s.toResponder
  pending : t.pending = s.pending
  up : t.up = { s.up with laneNotes := t.up.laneNotes }
  dp : t.dp = { s.dp with urgent := t.dp.urgent, slots := t.dp.slots }
  lane : ∀ m, ¬P m → t.lane m = s.lane m
  queue : ∀ m, ¬P m → t.queue m = s.queue m
  note : ∀ m, ¬P m → t.up.laneNotes.get m = s.up.laneNotes.get m
  slot : ∀ m, ¬P m → t.dp.slots.get m = s.dp.slots.get m
  urgent : ∃ new, t.dp.urgent = s.dp.urgent ++ new ∧ ∀ e ∈ new, P e.lane ∧ e.sending = false
  distinct : s.UrgentDistinct → t.UrgentDistinct
  drain : s.DrainWithoutPositions → t.DrainWithoutPositions
  length : ∀ m, (t.queue m).length ≤ (s.queue m).length

variable {P Q : LaneId → Prop} {s t u : State}

theorem State.OnlyLanes.refl (P : LaneId → Prop) (s : State) : s.OnlyLanes P s := by
  constructor <;> first | rfl | (intros; rfl) | exact ⟨[], by simp⟩ | exact id | exact fun _ => le_rfl

theorem State.OnlyLanes.trans (h : s.OnlyLanes P t) (k : t.OnlyLanes P u) : s.OnlyLanes P u where
  straps := k.straps.trans h.straps
  held := k.held.trans h.held
  clock := k.clock.trans h.clock
  routes := k.routes.trans h.routes
  controller := k.controller.trans h.controller
  restart := k.restart.trans h.restart
  unanswered := k.unanswered.trans h.unanswered
  wrongPort := k.wrongPort.trans h.wrongPort
  toSwitch := k.toSwitch.trans h.toSwitch
  toLanes := k.toLanes.trans h.toLanes
  toResponder := k.toResponder.trans h.toResponder
  pending := k.pending.trans h.pending
  up := by rw [k.up, h.up]
  dp := by rw [k.dp, h.dp]
  lane m hm := (k.lane m hm).trans (h.lane m hm)
  queue m hm := (k.queue m hm).trans (h.queue m hm)
  note m hm := (k.note m hm).trans (h.note m hm)
  slot m hm := (k.slot m hm).trans (h.slot m hm)
  urgent := by
    obtain ⟨a, ha, hp⟩ := h.urgent
    obtain ⟨b, hb, hq⟩ := k.urgent
    refine ⟨a ++ b, by rw [hb, ha, List.append_assoc], fun e he => ?_⟩
    rcases List.mem_append.mp he with h | h
    · exact hp e h
    · exact hq e h
  distinct := k.distinct ∘ h.distinct
  drain := k.drain ∘ h.drain
  length m := (k.length m).trans (h.length m)

theorem State.OnlyLanes.mono (h : s.OnlyLanes P t) (hPQ : ∀ m, P m → Q m) : s.OnlyLanes Q t where
  straps := h.straps
  held := h.held
  clock := h.clock
  routes := h.routes
  controller := h.controller
  restart := h.restart
  unanswered := h.unanswered
  wrongPort := h.wrongPort
  toSwitch := h.toSwitch
  toLanes := h.toLanes
  toResponder := h.toResponder
  pending := h.pending
  up := h.up
  dp := h.dp
  lane m hm := h.lane m fun hp => hm (hPQ m hp)
  queue m hm := h.queue m fun hp => hm (hPQ m hp)
  note m hm := h.note m fun hp => hm (hPQ m hp)
  slot m hm := h.slot m fun hp => hm (hPQ m hp)
  urgent := by
    obtain ⟨a, ha, hp⟩ := h.urgent
    exact ⟨a, ha, fun e he => ⟨hPQ _ (hp e he).1, (hp e he).2⟩⟩
  distinct := h.distinct
  drain := h.drain
  length := h.length

theorem State.OnlyLanes.headOf (h : s.OnlyLanes P t) (n : LaneId) : t.headOf n = s.headOf n := by
  simp only [State.headOf, h.routes]

theorem State.OnlyLanes.isolationOf (h : s.OnlyLanes P t) (n : LaneId) : t.isolationOf n = s.isolationOf n := by
  simp only [State.isolationOf, h.routes]

theorem State.OnlyLanes.activeOrder (h : s.OnlyLanes P t) {m : LaneId} (hm : ¬P m) :
    t.activeOrder m = s.activeOrder m := by
  simp only [State.activeOrder, h.queue m hm]

/-- A lane that waits in a gang afterwards and lies outside `P` waited before. -/
theorem State.OnlyLanes.waits (h : s.OnlyLanes P t) (hw : ∀ m, (s.lane m).seq.state = .gangWait → P m) (m : LaneId)
    (hm : (t.lane m).seq.state = .gangWait) : P m := by
  by_cases hp : P m
  · exact hp
  · exact hw m (h.lane m hp ▸ hm)

/-- The lanes of `P` take in every lane that lane `n` would release by joining the gang of the order `q` (R81). -/
def State.ReleasesIn (s : State) (P : LaneId → Prop) (n : LaneId) (q : Option Order) : Prop :=
  ∀ o, q = some o → o.gangTag ≠ 0 → ∀ m, m ≠ n → s.Waits o.gangTag m → P m

theorem State.releasesIn_of_all {n : LaneId} {q : Option Order} (hw : ∀ m, (s.lane m).seq.state = .gangWait → P m) :
    s.ReleasesIn P n q := fun _ _ _ m _ h => hw m h.2.1

/-- Lanes that do not wait when an operation begins do not wait in the same gang after it, but for those it may touch. -/
theorem State.OnlyLanes.releases {n : LaneId} {q r : Option Order} (h : s.OnlyLanes P t) (hw : s.ReleasesIn P n q)
    (hq : ∀ o, r = some o → ∃ o', q = some o' ∧ o'.gangTag = o.gangTag) : t.ReleasesIn P n r := by
  intro o ho hg m hm hwait
  obtain ⟨o', ho', hg'⟩ := hq o ho
  by_cases hp : P m
  · exact hp
  · refine hw o' ho' (hg' ▸ hg) m hm ?_
    rw [hg']
    unfold State.Waits at hwait ⊢
    rw [h.lane m hp] at hwait
    rwa [State.activeOrder, h.queue m hp] at hwait

/-- The urgent queue only grows: an entry that is there stays there. -/
theorem State.OnlyLanes.urgentHolds (h : s.OnlyLanes P t) {n : LaneId} {k : UrgentKind}
    (hu : urgentHolds s.dp.urgent n k = true) : urgentHolds t.dp.urgent n k = true := by
  obtain ⟨a, ha, -⟩ := h.urgent
  unfold Machine.urgentHolds at *
  rw [ha, List.any_append, hu, Bool.true_or]

/-! ### The plain updates -/

theorem State.onlyLanes_putLane (s : State) {n : LaneId} (hn : P n) (l : Lane) : s.OnlyLanes P (s.putLane n l) := by
  constructor <;> first
    | rfl
    | exact id
    | exact fun _ => le_rfl
    | exact ⟨[], by simp⟩
    | (intro m hm; rfl)
    | (intro m hm; exact State.putLane_lane_of_ne s l fun h => hm (h ▸ hn))

theorem State.onlyLanes_onLane (s : State) {n : LaneId} (hn : P n) (f : Lane → Lane) :
    s.OnlyLanes P (s.onLane n f) :=
  s.onlyLanes_putLane hn _

theorem State.onlyLanes_raiseNote (s : State) {n : LaneId} (hn : P n) : s.OnlyLanes P (s.raiseNote n) := by
  constructor <;> first
    | rfl
    | exact id
    | exact fun _ => le_rfl
    | exact ⟨[], by simp⟩
    | (intro m hm; rfl)
    | (intro m hm; exact State.raiseNote_laneNotes_of_ne s fun h => hm (h ▸ hn))

theorem State.onlyLanes_raiseNoteIf (s : State) {n : LaneId} (hn : P n) (b : Bool) :
    s.OnlyLanes P (s.raiseNoteIf n b) := by
  cases b
  · exact .refl P s
  · exact s.onlyLanes_raiseNote hn

theorem State.onlyLanes_enterState (s : State) {n : LaneId} (hn : P n) (st : LaneState) :
    s.OnlyLanes P (s.enterState n st) :=
  (s.onlyLanes_onLane hn _).trans (State.onlyLanes_raiseNote _ hn)

theorem State.onlyLanes_setHold (s : State) {n : LaneId} (hn : P n) (h : HoldCause) : s.OnlyLanes P (s.setHold n h) :=
  s.onlyLanes_onLane hn _

theorem State.onlyLanes_putQueue (s : State) {n : LaneId} (hn : P n) (q : List Order)
    (hq : q.length ≤ (s.queue n).length) : s.OnlyLanes P (s.putQueue n q) := by
  constructor <;> first
    | rfl
    | exact id
    | exact ⟨[], by simp⟩
    | (intro m hm; rfl)
    | (intro m hm; exact State.putQueue_queue_of_ne s q fun h => hm (h ▸ hn))
    | (intro m
       by_cases h : m = n
       · subst h
         simpa using hq
       · exact (congrArg List.length (State.putQueue_queue_of_ne s q h)).le)

theorem State.onlyLanes_onHead (s : State) {n : LaneId} (hn : P n) (f : Order → Order) :
    s.OnlyLanes P (s.onHead n f) := by
  unfold State.onHead
  split
  · rename_i h
    exact s.onlyLanes_putQueue hn _ (by simp [h])
  · exact .refl P s

theorem State.onlyLanes_reservations (s : State) (P : LaneId → Prop) (k : Nat) :
    s.OnlyLanes P { s with reservations := k } := by
  constructor <;> first | rfl | exact id | exact fun _ => le_rfl | exact ⟨[], by simp⟩ | (intro m hm; rfl)

theorem State.onlyLanes_store (s : State) (P : LaneId → Prop) (rs : List Record) (k : Nat) :
    s.OnlyLanes P { s with records := rs, reservations := k } := by
  constructor <;> first | rfl | exact id | exact fun _ => le_rfl | exact ⟨[], by simp⟩ | (intro m hm; rfl)

theorem State.onlyLanes_withdrawPosition (s : State) {n : LaneId} (hn : P n) :
    s.OnlyLanes P (s.withdrawPosition n) := by
  constructor <;> first
    | rfl
    | exact fun _ => le_rfl
    | exact ⟨[], by simp⟩
    | exact fun (h : s.UrgentDistinct) => h
    | (intro m hm; rfl)
    | (intro m hm; exact State.withdrawPosition_slots_of_ne s fun h => hm (h ▸ hn))
    | (intro h hr m
       by_cases hm : m = n
       · subst hm
         simp
       · rw [State.withdrawPosition_slots_of_ne s hm]
         exact h hr m)

theorem State.onlyLanes_placePosition (s : State) {n : LaneId} (hn : P n) (p : Nat) :
    s.OnlyLanes P (s.placePosition n p) := by
  unfold State.placePosition
  split
  · exact .refl P s
  · rename_i hr
    split
    · constructor <;> first
        | rfl
        | exact fun _ => le_rfl
        | exact ⟨[], by simp⟩
        | exact fun (h : s.UrgentDistinct) => h
        | exact fun _ (h : s.restart.isSome = true) => absurd h hr
        | (intro m hm; rfl)
        | (intro m hm; exact PerLane.get_set_of_ne _ _ fun h => hm (h ▸ hn))
    · exact .refl P s

theorem urgentHolds_eq_false {q : List UrgentEntry} {n : LaneId} {k : UrgentKind} (h : urgentHolds q n k = false) :
    (n, k) ∉ q.map fun e => (e.lane, e.kind) := by
  simp only [urgentHolds, List.any_eq_false, Bool.and_eq_true, beq_iff_eq, not_and, List.mem_map, Prod.mk.injEq] at *
  rintro ⟨e, he, h1, h2⟩
  exact h e he h1 h2

theorem State.onlyLanes_placeUrgent (s : State) {n : LaneId} (hn : P n) (k : UrgentKind) (a : Byte) :
    s.OnlyLanes P (s.placeUrgent n k a) := by
  unfold State.placeUrgent
  split
  · exact .refl P s
  · rename_i hh
    constructor <;> first
      | rfl
      | exact fun _ => le_rfl
      | exact ⟨[{ lane := n, kind := k, dest := a, sending := false }], rfl, by simpa using hn⟩
      | exact fun (h : s.DrainWithoutPositions) => h
      | (intro m hm; rfl)
      | (intro h
         have := urgentHolds_eq_false (Bool.eq_false_iff.mpr hh)
         simp only [State.UrgentDistinct, List.map_append, List.map_cons, List.map_nil] at *
         exact List.nodup_append.mpr ⟨h, by simp, by
           intro a ha b hb
           simp only [List.mem_singleton] at hb
           subst hb
           exact fun hab => this (hab ▸ ha)⟩)

theorem State.onlyLanes_placeHeadClose (s : State) {n : LaneId} (hn : P n) : s.OnlyLanes P (s.placeHeadClose n) := by
  unfold State.placeHeadClose
  split
  · exact s.onlyLanes_placeUrgent hn _ _
  · exact .refl P s

theorem State.onlyLanes_placeIsolationClose (s : State) {n : LaneId} (hn : P n) :
    s.OnlyLanes P (s.placeIsolationClose n) := by
  unfold State.placeIsolationClose
  split
  · exact s.onlyLanes_placeUrgent hn _ _
  · exact .refl P s

/-! ### Order store -/

theorem State.onlyLanes_reserve (s : State) {n : LaneId} (hn : P n) : s.OnlyLanes P (s.reserve n) :=
  (s.onlyLanes_reservations P _).trans (State.onlyLanes_onHead _ hn _)

theorem State.onlyLanes_returnReservation (s : State) {n : LaneId} (hn : P n) :
    s.OnlyLanes P (s.returnReservation n) := by
  unfold State.returnReservation
  split
  · split
    · exact (s.onlyLanes_reservations P _).trans (State.onlyLanes_onHead _ hn _)
    · exact .refl P s
  · exact .refl P s

theorem State.onlyLanes_endWithRecord (s : State) {n : LaneId} (hn : P n) (o : OrderOutcome) :
    s.OnlyLanes P (s.endWithRecord n o) := by
  unfold State.endWithRecord
  split
  · split
    · rename_i h _
      refine ((s.onlyLanes_store P _ _).trans (State.onlyLanes_putQueue _ hn _ ?_)).trans (State.onlyLanes_raiseNote _ hn)
      show _ ≤ (s.queue n).length
      simp [h]
    · exact .refl P s
  · exact .refl P s

theorem State.onlyLanes_closeCompartment (s : State) {n : LaneId} (hn : P n) (r : CompResult) :
    s.OnlyLanes P (s.closeCompartment n r) :=
  (s.onlyLanes_onHead hn _).trans (State.onlyLanes_onLane _ hn _)

/-! ### Lane states -/

theorem State.onlyLanes_enterFilling (s : State) {n : LaneId} (hn : P n) (k : Nat) :
    s.OnlyLanes P (s.enterFilling n k) := by
  unfold State.enterFilling
  split
  · exact (((s.onlyLanes_onHead hn _).trans (State.onlyLanes_onLane _ hn _)).trans
      (State.onlyLanes_raiseNote _ hn)).trans (State.onlyLanes_placePosition _ hn _)
  · exact .refl P s

theorem State.onlyLanes_releaseGang (members : List LaneId) (hm : ∀ m ∈ members, P m) (s : State) :
    s.OnlyLanes P (s.releaseGang members) := by
  unfold State.releaseGang
  induction members generalizing s with
  | nil => exact .refl P s
  | cons n rest ih =>
    exact (s.onlyLanes_enterFilling (hm n (by simp)) 1).trans (ih (fun m h => hm m (by simp [h])) _)

theorem State.waitingSet_mem {s : State} {g : Nat} {m : LaneId} (h : m ∈ s.waitingSet g) :
    (s.lane m).seq.mode = .auto ∧ (s.lane m).seq.state = .gangWait
      ∧ ∃ o, s.activeOrder m = some o ∧ o.gangTag = g := by
  simp only [State.waitingSet, List.mem_filter, Bool.and_eq_true, beq_iff_eq, mem_allLanes, true_and] at h
  refine ⟨h.1.1, h.1.2, ?_⟩
  revert h
  cases s.activeOrder m <;> simp

/-- Entry to GANG_WAIT touches its lane and lanes that wait already in its gang. -/
theorem State.onlyLanes_enterGangWait (s : State) {n : LaneId} (hn : P n) (o : Order)
    (hw : ∀ m, m ≠ n → s.Waits o.gangTag m → P m) : s.OnlyLanes P (s.enterGangWait n o) := by
  unfold State.enterGangWait
  have h1 := (s.onlyLanes_onLane hn (fun l => l.onSeq fun q => { q with
    gangTimer := some (s.startTimer (s.lane n).params.gangWait) })).trans
    (State.onlyLanes_enterState _ hn .gangWait)
  dsimp only
  split
  · refine h1.trans (State.onlyLanes_releaseGang _ (fun m hm => ?_) _)
    by_cases hmn : m = n
    · exact hmn ▸ hn
    · have h2 := State.waitingSet_mem hm
      rw [State.enterState_lane_of_ne _ _ hmn, State.onLane_lane_of_ne _ _ hmn] at h2
      exact hw m hmn h2
  · exact h1

theorem State.onlyLanes_dropOut (s : State) {n : LaneId} (hn : P n) (c : HoldCause) : s.OnlyLanes P (s.dropOut n c) :=
  ((s.onlyLanes_returnReservation hn).trans (State.onlyLanes_onLane _ hn _)).trans (State.onlyLanes_enterState _ hn _)

theorem State.onlyLanes_testArmed (s : State) {n : LaneId} (hn : P n) (hw : s.ReleasesIn P n (s.activeOrder n)) :
    s.OnlyLanes P (s.testArmed n) := by
  unfold State.testArmed
  split
  · rename_i o ho
    split
    · split
      · have h1 : s.OnlyLanes P ((s.setHold n .none).reserve n) :=
          (s.onlyLanes_setHold hn _).trans (State.onlyLanes_reserve _ hn)
        dsimp only
        split
        · exact h1.trans (State.onlyLanes_enterFilling _ hn 1)
        · rename_i hg
          exact h1.trans (State.onlyLanes_enterGangWait _ hn _ (h1.releases hw (fun p hp => ⟨p, hp, rfl⟩) o ho hg))
      · exact s.onlyLanes_setHold hn _
    · exact s.onlyLanes_setHold hn _
  · exact .refl P s

theorem State.onlyLanes_takeUp (s : State) {n : LaneId} (hn : P n) (hw : s.ReleasesIn P n (s.queue n).head?) :
    s.OnlyLanes P (s.takeUp n) := by
  unfold State.takeUp
  split
  · rename_i o rest hq
    split
    · exact .refl P s
    · have h1 := (s.onlyLanes_onHead hn (fun o => { o with active := true })).trans
        (State.onlyLanes_enterState _ hn .armed)
      refine h1.trans (State.onlyLanes_testArmed _ hn (h1.releases hw fun p hp => ⟨o, by rw [hq]; rfl, ?_⟩))
      have hq' : s.orders.get n = o :: rest := hq
      simp only [State.activeOrder, State.enterState, State.raiseNote, State.onLane, State.putLane, State.onHead,
        State.queue, hq', State.putQueue, PerLane.get_set_self, if_true, Option.some.injEq] at hp
      subst hp
      rfl
  · exact .refl P s

theorem State.onlyLanes_applyBank (s : State) {n : LaneId} (hn : P n) : s.OnlyLanes P (s.applyBank n) :=
  (s.onlyLanes_putLane hn _).trans (State.onlyLanes_raiseNoteIf _ hn _)

theorem State.onlyLanes_applyPending (s : State) {n : LaneId} (hn : P n) : s.OnlyLanes P (s.applyPending n) := by
  unfold State.applyPending
  split
  · exact s.onlyLanes_applyBank hn
  · exact .refl P s

theorem State.applyPending_queue (s : State) (n m : LaneId) : (s.applyPending n).queue m = s.queue m := by
  unfold State.applyPending State.applyBank State.raiseNoteIf
  repeat' split
  all_goals rfl

theorem State.onlyLanes_enterIdle (s : State) {n : LaneId} (hn : P n) (hw : s.ReleasesIn P n (s.queue n).head?) :
    s.OnlyLanes P (s.enterIdle n) := by
  have h1 := ((s.onlyLanes_onLane hn (fun l => l.onSeq fun q => { q with holdCause := .none, faultCause := .none })).trans
    (State.onlyLanes_enterState _ hn .idle)).trans (State.onlyLanes_applyPending _ hn)
  refine h1.trans (State.onlyLanes_takeUp _ hn (h1.releases hw fun o ho => ⟨o, ?_, rfl⟩))
  rw [State.applyPending_queue] at ho
  exact ho

theorem State.onlyLanes_enterFault (s : State) {n : LaneId} (hn : P n) (c : FaultCause) :
    s.OnlyLanes P (s.enterFault n c) := by
  have h1 := s.onlyLanes_withdrawPosition (P := P) hn
  unfold State.enterFault
  refine State.OnlyLanes.trans ?_ (State.onlyLanes_endWithRecord _ hn .faulted)
  refine State.OnlyLanes.trans ?_ (State.onlyLanes_enterState _ hn .fault)
  refine State.OnlyLanes.trans ?_ (State.onlyLanes_onLane _ hn _)
  split
  · split
    · exact h1.trans (State.onlyLanes_closeCompartment _ hn _)
    · exact h1
  · exact h1

theorem State.onlyLanes_faultClosingAll (s : State) {n : LaneId} (hn : P n) (c : FaultCause) :
    s.OnlyLanes P (s.faultClosingAll n c) :=
  ((s.onlyLanes_placeHeadClose hn).trans (State.onlyLanes_placeIsolationClose _ hn)).trans
    (State.onlyLanes_enterFault _ hn c)

theorem State.onlyLanes_cutOff (s : State) {n : LaneId} (hn : P n) (c : CutCause) : s.OnlyLanes P (s.cutOff n c) :=
  (((s.onlyLanes_placeHeadClose hn).trans (State.onlyLanes_withdrawPosition _ hn)).trans
    (State.onlyLanes_onLane _ hn _)).trans (State.onlyLanes_enterState _ hn _)

theorem State.onlyLanes_enterSettling (s : State) {n : LaneId} (hn : P n) : s.OnlyLanes P (s.enterSettling n) :=
  (s.onlyLanes_onLane hn _).trans (State.onlyLanes_enterState _ hn _)

theorem State.onlyLanes_enterIndexing (s : State) {n : LaneId} (hn : P n) : s.OnlyLanes P (s.enterIndexing n) :=
  (s.onlyLanes_onLane hn _).trans (State.onlyLanes_enterState _ hn _)

/-- The end of an order takes it from the head of its queue. -/
theorem State.endWithRecord_queue_self {s : State} {n : LaneId} {o : Order} {outcome : OrderOutcome}
    (h : s.activeOrder n = some o) : (s.endWithRecord n outcome).queue n = (s.queue n).drop 1 := by
  unfold State.activeOrder at h
  unfold State.endWithRecord
  split at h
  · rename_i p rest hq
    split at h
    · rename_i ha
      simp only [hq, ha, if_true]
      exact PerLane.get_set_self _ _ _
    · cases h
  · cases h

/-- The result of a compartment is appended to the head of the queue, and the orders behind it stay. -/
theorem State.closeCompartment_queue_tail (s : State) (n : LaneId) (r : CompResult) :
    ((s.closeCompartment n r).queue n).drop 1 = (s.queue n).drop 1 := by
  unfold State.closeCompartment State.onHead
  cases hq : s.orders.get n <;> simp [State.queue, hq, State.onLane, State.putLane, State.putQueue]

theorem State.onlyLanes_endOrder (s : State) {n : LaneId} (hn : P n)
    (hw : s.ReleasesIn P n ((s.queue n).drop 1).head?) (o : OrderOutcome) : s.OnlyLanes P (s.endOrder n o) := by
  unfold State.endOrder
  split
  · rename_i ord hord
    have h1 : s.OnlyLanes P
        ((if o = .complete then s.onLane n fun l => { l with recon := some (reconOf l ord) } else s).endWithRecord n o) := by
      refine State.OnlyLanes.trans ?_ (State.onlyLanes_endWithRecord _ hn o)
      split
      · exact s.onlyLanes_onLane hn _
      · exact .refl P s
    refine h1.trans (State.onlyLanes_enterIdle _ hn (h1.releases hw fun p hp => ⟨p, ?_, rfl⟩))
    rw [State.endWithRecord_queue_self (by split <;> exact hord)] at hp
    split at hp <;> exact hp
  · exact .refl P s

theorem State.onlyLanes_endSettling (s : State) {n : LaneId} (hn : P n)
    (hw : s.ReleasesIn P n ((s.queue n).drop 1).head?) : s.OnlyLanes P (s.endSettling n) := by
  have h := fun l r => (s.onlyLanes_putLane hn l).trans (State.onlyLanes_closeCompartment (P := P) _ hn r)
  unfold State.endSettling
  split
  · dsimp only
    split
    · refine (h _ _).trans (State.onlyLanes_endOrder _ hn ((h _ _).releases hw fun p hp => ⟨p, ?_, rfl⟩) _)
      rw [State.closeCompartment_queue_tail] at hp
      exact hp
    · exact (h _ _).trans (State.onlyLanes_enterIndexing _ hn)
  · exact .refl P s

/-! ### Stage 5 -/

theorem State.onlyLanes_decidePouring (s : State) {n : LaneId} (hn : P n) (r : SampleRecord) (fig : Figures) :
    s.OnlyLanes P (s.decidePouring n r fig) := by
  have h := s.onlyLanes_onLane hn (fun l =>
    if l.params.closedBand < r.gate then l.onSeq fun q => { q with openTimer := none } else l)
  unfold State.decidePouring
  dsimp only
  refine State.OnlyLanes.trans h ?_
  repeat' split
  · exact State.onlyLanes_faultClosingAll _ hn _
  · exact State.onlyLanes_cutOff _ hn _
  · exact State.onlyLanes_cutOff _ hn _
  · exact State.onlyLanes_cutOff _ hn _
  · exact ((State.onlyLanes_onLane _ hn _).trans (State.onlyLanes_enterState _ hn _)).trans
      (State.onlyLanes_placePosition _ hn _)
  · exact .refl P _

theorem State.onlyLanes_decideSettling (s : State) {n : LaneId} (hn : P n)
    (hw : s.ReleasesIn P n ((s.queue n).drop 1).head?) : s.OnlyLanes P (s.decideSettling n) := by
  have h := fun f => s.onlyLanes_onLane (P := P) hn f
  unfold State.decideSettling
  extract_lets l quiet t
  split
  · exact (h _).trans (State.onlyLanes_endSettling _ hn ((h _).releases hw fun p hp => ⟨p, hp, rfl⟩))
  · exact h _

theorem State.onlyLanes_decideIndexing (s : State) {n : LaneId} (hn : P n) : s.OnlyLanes P (s.decideIndexing n) := by
  unfold State.decideIndexing
  repeat' split
  · exact s.onlyLanes_enterFilling hn _
  · exact .refl P s
  · exact s.onlyLanes_setHold hn _

theorem State.onlyLanes_decideGangWait (s : State) {n : LaneId} (hn : P n) : s.OnlyLanes P (s.decideGangWait n) := by
  unfold State.decideGangWait
  split
  · exact .refl P s
  · exact s.onlyLanes_dropOut hn _

theorem State.onlyLanes_stage5Tests (s : State) {n : LaneId} (hn : P n) (hw : s.ReleasesIn P n (s.joining n))
    (r : SampleRecord) (fig : Figures) : s.OnlyLanes P (s.stage5Tests n r fig) := by
  unfold State.stage5Tests
  unfold State.joining at hw
  cases hm : (s.lane n).seq.mode
  · exact .refl P s
  · exact .refl P s
  · rw [if_pos hm] at hw
    cases hs : (s.lane n).seq.state <;> simp only [hs] at hw ⊢
    · exact s.onlyLanes_takeUp hn hw
    · exact s.onlyLanes_testArmed hn hw
    · exact s.onlyLanes_decideGangWait hn
    · exact s.onlyLanes_decidePouring hn r fig
    · exact s.onlyLanes_decidePouring hn r fig
    · split
      · exact s.onlyLanes_enterSettling hn
      · exact .refl P s
    · exact s.onlyLanes_decideSettling hn hw
    · exact s.onlyLanes_decideIndexing hn
    · exact .refl P s

theorem State.onlyLanes_regimeCommand (s : State) {n : LaneId} (hn : P n) (left : Regime) :
    s.OnlyLanes P (s.regimeCommand n left) := by
  unfold State.regimeCommand
  split
  · exact (s.onlyLanes_onLane hn _).trans (State.onlyLanes_placePosition _ hn _)
  · exact .refl P s

theorem State.onlyLanes_stage5 (s : State) {n : LaneId} (hn : P n) (hw : s.ReleasesIn P n (s.joining n)) (r : SampleRecord) (left : Option Regime) (fig : Figures) :
    s.OnlyLanes P (s.stage5 n r left fig) := by
  have h1 := s.onlyLanes_stage5Tests hn hw r fig
  unfold State.stage5
  dsimp only
  repeat' split
  · exact h1.trans (State.onlyLanes_regimeCommand _ hn _)
  · exact h1
  · exact h1

/-! ### A sample -/

theorem State.onlyLanes_contact (s : State) {n : LaneId} (hn : P n) : s.OnlyLanes P (s.contact n) :=
  (s.onlyLanes_onLane hn _).trans (State.onlyLanes_raiseNoteIf _ hn _)

theorem State.onlyLanes_stage2 (s : State) {n : LaneId} (hn : P n) (r : SampleRecord) : s.OnlyLanes P (s.stage2 n r) :=
  (s.onlyLanes_putLane hn _).trans (State.onlyLanes_raiseNoteIf _ hn _)

theorem State.onlyLanes_stage3 (s : State) {n : LaneId} (hn : P n) (r : SampleRecord) : s.OnlyLanes P (s.stage3 n r) :=
  (s.onlyLanes_putLane hn _).trans (State.onlyLanes_raiseNoteIf _ hn _)

theorem State.onlyLanes_laterStages (s : State) {n : LaneId} (hn : P n)
    (hw : ∀ m, (s.lane m).seq.state = .gangWait → P m) (r : SampleRecord) : s.OnlyLanes P (s.laterStages n r) := by
  have h1 := (s.onlyLanes_stage2 (P := P) hn r).trans (State.onlyLanes_stage3 _ hn r)
  have h2 := fun l => h1.trans (State.onlyLanes_putLane _ hn l)
  unfold State.laterStages
  dsimp only
  exact (h2 _).trans (State.onlyLanes_stage5 _ hn (State.releasesIn_of_all ((h2 _).waits hw)) _ _ _)

theorem State.onlyLanes_takeSample (s : State) {n : LaneId} (hn : P n)
    (hw : ∀ m, (s.lane m).seq.state = .gangWait → P m) (m : Meas) : s.OnlyLanes P (s.takeSample n m) := by
  have h1 := s.onlyLanes_contact (P := P) hn
  unfold State.takeSample
  dsimp only
  split
  · exact h1.trans (State.onlyLanes_onLane _ hn _)
  · have h2 := fun l => h1.trans (State.onlyLanes_putLane _ hn l)
    split
    · exact (h2 _).trans (State.onlyLanes_laterStages _ hn ((h2 _).waits hw) _)
    · exact h2 _

/-! ### Requests that act on one lane -/

theorem State.onlyLanes_setMode (s : State) {n : LaneId} (hn : P n) (m : Mode) : s.OnlyLanes P (s.setMode n m) :=
  (s.onlyLanes_onLane hn _).trans (State.onlyLanes_raiseNote _ hn)

theorem State.onlyLanes_settleMode (s : State) {n : LaneId} (hn : P n)
    (hw : ∀ m, (s.lane m).seq.state = .gangWait → P m) (m : Mode) : s.OnlyLanes P (s.settleMode n m) := by
  cases m
  · exact s.onlyLanes_onLane hn fun l => { l with flow := { l.flow with flow := 0 } }
  · exact s.onlyLanes_onLane hn fun l => { l with flow := { l.flow with overrange := false } }
  · exact s.onlyLanes_enterIdle hn (State.releasesIn_of_all hw)

theorem State.onlyLanes_changeMode (s t : State) {n : LaneId} (hn : P n)
    (hw : ∀ m, (s.lane m).seq.state = .gangWait → P m) (m : Mode) (h : s.changeMode n m = some t) :
    s.OnlyLanes P t := by
  have settle : ∀ u : State, s.OnlyLanes P u → s.OnlyLanes P (u.settleMode n m) := fun u hu =>
    hu.trans (State.onlyLanes_settleMode _ hn (hu.waits hw) m)
  unfold State.changeMode at h
  split at h
  · split at h
    · obtain rfl := Option.some.inj h
      exact settle _ ((s.onlyLanes_onLane hn _).trans (State.onlyLanes_setMode _ hn m))
    · cases h
  · obtain rfl := Option.some.inj h
    exact settle _ (s.onlyLanes_setMode hn m)
  · split at h
    · obtain rfl := Option.some.inj h
      exact settle _ (((((s.onlyLanes_returnReservation hn).trans (State.onlyLanes_putQueue _ hn [] (Nat.zero_le _))).trans
        (State.onlyLanes_onLane _ hn _)).trans (State.onlyLanes_setMode _ hn m)).trans
        (State.onlyLanes_applyPending _ hn))
    · cases h

theorem State.onlyLanes_removeActive (s : State) {n : LaneId} (hn : P n)
    (hw : ∀ m, (s.lane m).seq.state = .gangWait → P m) : s.OnlyLanes P (s.removeActive n) :=
  (s.onlyLanes_putQueue hn _ (by simp)).trans (State.onlyLanes_enterIdle _ hn (State.releasesIn_of_all hw))

theorem State.onlyLanes_cancelGangWait (s : State) {n : LaneId} (hn : P n)
    (hw : ∀ m, (s.lane m).seq.state = .gangWait → P m) : s.OnlyLanes P (s.cancelGangWait n) := by
  exact (s.onlyLanes_onLane hn _).trans
    (State.onlyLanes_endOrder _ hn (State.releasesIn_of_all ((s.onlyLanes_onLane hn _).waits hw)) _)

theorem State.onlyLanes_cancelActive (s : State) {n : LaneId} (hn : P n)
    (hw : ∀ m, (s.lane m).seq.state = .gangWait → P m) {t : State} {d : Disposition}
    (h : s.cancelActive n = some (t, d)) : s.OnlyLanes P t := by
  unfold State.cancelActive at h
  split at h <;> cases h
  · exact s.onlyLanes_removeActive hn hw
  · exact s.onlyLanes_cancelGangWait hn hw
  · exact s.onlyLanes_cutOff hn _
  · exact s.onlyLanes_cutOff hn _
  · exact s.onlyLanes_onHead hn _
  · exact s.onlyLanes_onHead hn _
  · exact s.onlyLanes_endOrder hn (State.releasesIn_of_all hw) _

end Sys2Proof.Machine
end

