-- ==== Sys2Proof/Laws/Lanes.lean ====
section
/-! SUPPORT. Everything a command can do to a lane engine, said once: a property of lane engines that each of these
changes keeps is kept by every command. -/

namespace Sys2Proof.Machine

/-- `P` is kept by every change that a command can make to a lane engine. `routed n` says that lane `n`'s head is
routed, which only a change of mode asks about. -/
structure LaneOps (routed : LaneId → Prop) (P : LaneId → Lane → Prop) : Prop where
  seq : ∀ n l l', P n l → l' = { l with seq := l'.seq } → l'.seq.mode = l.seq.mode → P n l'
  mode : ∀ n l (m : Mode), (l.seq.mode = .outOfService → l.flow.active.curvesValid = true ∧ routed n) → P n l →
    P n { l with seq := { l.seq with mode := m } }
  counters : ∀ n l (c : LaneCounters), (l.counters.Bounded → c.Bounded) → P n l → P n { l with counters := c }
  marks : ∀ n l (a b : Bool), P n l → P n { l with resumeMark := a, screenedMark := b }
  recon : ∀ n l (e : Option ReconEntry), P n l → P n { l with recon := e }
  report : ∀ n l (m : Meas), m.gate ≤ 1000 → P n l → P n (l.copyReport m)
  condition : ∀ n l (m : Meas) (first : Bool) (interval : Nat), m.gate ≤ 1000 → P n l →
    P n (l.condition m first interval).1
  stage2 : ∀ n l (r : SampleRecord), P n l → P n (l.stage2 r).1
  stage3 : ∀ n l (r : SampleRecord), P n l → P n (l.stage3 r).1
  stage4 : ∀ n l (r : SampleRecord) (k : Nat), P n l → P n (l.stage4 r k).1
  learn : ∀ n l (b : Bool) (r : CompResult), P n l → P n (l.learn b r).1
  reconcile : ∀ n l (e : ReconEntry) (kg : Nat), P n l → P n (l.reconcile e kg).1
  apply : ∀ n l, l.flow.commitPending = true → P n l → P n l.applyBank.1
  calibrate : ∀ n l, P n l → P n l.calibrate
  enterService : ∀ n l, P n l → P n l.enterService
  noFlow : ∀ n l, P n l → P n { l with flow := { l.flow with flow := 0 } }
  overrange : ∀ n l (b : Bool), P n l → P n { l with flow := { l.flow with overrange := b } }
  silenced : ∀ n l, P n l → P n l.silenced
  fill : ∀ n l, P n l → P n { l with integ := { l.integ with grams := 0, residue := 0 } }
  total : ∀ n l, P n l →
    P n { l with integ := { l.integ with manualTotal := 0, manualResidue := 0, manualFull := false } }
  restarted : ∀ n l (now : BitVec 32), P n l → P n (l.restarted now)
  powerOn : ∀ n, P n Lane.powerOn
  param : ∀ n l (id v : Nat), id ≤ 27 → l.flow.commitPending = false → P n l →
    P n { l with flow := { l.flow with
      staged := { l.flow.staged with params := l.flow.staged.params.write id v } } }
  slot : ∀ n l (g : Regime) (count index : Nat) (b : Breakpoint), 1 ≤ count → count ≤ 16 → b.force ≤ 32767 →
    b.flow ≤ 200000 → l.flow.commitPending = false → P n l →
    P n { l with flow := { l.flow with staged := l.flow.staged.writeSlot g count index b } }
  commit : ∀ n l, l.flow.staged.firstFailure = none → P n l → P n { l with flow := { l.flow with commitPending := true } }

theorem bump_le (n : Nat) : bump n ≤ 4294967295 := by
  unfold bump
  split <;> omega

/-- A counter raised is the statements' `raised`. -/
theorem bump_eq_raised (n : Nat) : bump n = raised n := by
  unfold bump raised
  split <;> omega

/-- Every lane of `s` has `P`. -/
def State.Every (P : LaneId → Lane → Prop) (s : State) : Prop := ∀ n, P n (s.lane n)

variable {routed : LaneId → Prop} {P : LaneId → Lane → Prop} {s : State}

/-- Entry to FILLING keeps what its parts keep. -/
theorem LaneOps.enterFilling (hP : LaneOps routed P) {n : LaneId} {l : Lane} (now : BitVec 32) (position : Nat)
    (st : LaneState) (h : P n l) : P n (l.enterFilling now position st) := by
  have h1 := hP.overrange n _ false (hP.fill n l h)
  exact hP.seq n _ _ h1 rfl rfl

namespace State.Every

theorem putLane (h : s.Every P) {n : LaneId} {l : Lane} (hl : P n l) : (s.putLane n l).Every P := fun m => by
  by_cases hm : m = n
  · subst hm
    simpa using hl
  · rw [State.putLane_lane_of_ne s l hm]
    exact h m

theorem onLane (h : s.Every P) {n : LaneId} {f : Lane → Lane} (hf : ∀ l, P n l → P n (f l)) : (s.onLane n f).Every P :=
  h.putLane (hf _ (h n))

theorem onSeq (hP : LaneOps routed P) (h : s.Every P) (n : LaneId) {f : Lane → Sequencer → Sequencer}
    (hf : ∀ l q, (f l q).mode = q.mode) : (s.onLane n fun l => l.onSeq (f l)).Every P :=
  h.onLane fun l hl => hP.seq n l _ hl rfl (hf l l.seq)

theorem raiseNote (h : s.Every P) (n : LaneId) : (s.raiseNote n).Every P := h

theorem raiseNoteIf (h : s.Every P) (n : LaneId) (b : Bool) : (s.raiseNoteIf n b).Every P := by
  cases b <;> exact h

theorem enterState (hP : LaneOps routed P) (h : s.Every P) (n : LaneId) (st : LaneState) : (s.enterState n st).Every P :=
  onSeq hP h n (f := fun _ q => { q with state := st }) fun _ _ => rfl

theorem setHold (hP : LaneOps routed P) (h : s.Every P) (n : LaneId) (c : HoldCause) : (s.setHold n c).Every P :=
  onSeq hP h n (f := fun _ q => { q with holdCause := c }) fun _ _ => rfl

theorem onHead (h : s.Every P) (n : LaneId) (f : Order → Order) : (s.onHead n f).Every P := by
  unfold State.onHead
  split <;> exact h

theorem placePosition (h : s.Every P) (n : LaneId) (p : Nat) : (s.placePosition n p).Every P := by
  unfold State.placePosition
  repeat' split
  all_goals exact h

theorem placeUrgent (h : s.Every P) (n : LaneId) (k : UrgentKind) (a : Byte) : (s.placeUrgent n k a).Every P := by
  unfold State.placeUrgent
  split <;> exact h

theorem placeHeadClose (h : s.Every P) (n : LaneId) : (s.placeHeadClose n).Every P := by
  unfold State.placeHeadClose
  split
  · exact h.placeUrgent _ _ _
  · exact h

theorem placeIsolationClose (h : s.Every P) (n : LaneId) : (s.placeIsolationClose n).Every P := by
  unfold State.placeIsolationClose
  split
  · exact h.placeUrgent _ _ _
  · exact h

theorem forwardUp (h : s.Every P) (f : Frame) : (s.forwardUp f).Every P := by
  unfold State.forwardUp
  split <;> exact h

theorem forwardDown (h : s.Every P) (f : Frame) : (s.forwardDown f).Every P := by
  unfold State.forwardDown
  split <;> exact h

theorem reserve (h : s.Every P) (n : LaneId) : (s.reserve n).Every P := by
  unfold State.reserve
  exact onHead (s := { s with reservations := s.reservations + 1 }) h n _

theorem returnReservation (h : s.Every P) (n : LaneId) : (s.returnReservation n).Every P := by
  unfold State.returnReservation
  repeat' split
  · exact onHead (s := { s with reservations := s.reservations - 1 }) h n _
  all_goals exact h

theorem endWithRecord (h : s.Every P) (n : LaneId) (o : OrderOutcome) : (s.endWithRecord n o).Every P := by
  unfold State.endWithRecord
  repeat' split
  all_goals exact h

theorem closeCompartment (hP : LaneOps routed P) (h : s.Every P) (n : LaneId) (r : CompResult) :
    (s.closeCompartment n r).Every P :=
  onSeq hP (h.onHead n _) n (f := fun _ q => { q with cutoff := none, wanted := none, gap := false }) fun _ _ => rfl

theorem enterFilling (hP : LaneOps routed P) (h : s.Every P) (n : LaneId) (k : Nat) : (s.enterFilling n k).Every P := by
  unfold State.enterFilling
  split
  · exact placePosition (raiseNote (onLane (h.onHead n _) fun l hl => hP.enterFilling _ _ _ hl) n) n _
  · exact h

theorem releaseGang (hP : LaneOps routed P) (members : List LaneId) {s : State} (h : s.Every P) :
    (s.releaseGang members).Every P := by
  unfold State.releaseGang
  induction members generalizing s with
  | nil => exact h
  | cons n rest ih => exact ih (h.enterFilling hP n 1)

theorem enterGangWait (hP : LaneOps routed P) (h : s.Every P) (n : LaneId) (o : Order) :
    (s.enterGangWait n o).Every P := by
  have h1 := enterState hP (onSeq hP h n
    (f := fun _ q => { q with gangTimer := some (s.startTimer (s.lane n).params.gangWait) }) fun _ _ => rfl) n .gangWait
  unfold State.enterGangWait
  dsimp only
  split
  · exact releaseGang hP _ h1
  · exact h1

theorem dropOut (hP : LaneOps routed P) (h : s.Every P) (n : LaneId) (c : HoldCause) : (s.dropOut n c).Every P :=
  enterState hP (onSeq hP (h.returnReservation n) n
    (f := fun _ q => { q with gangTimer := none, holdCause := c }) fun _ _ => rfl) n .armed

theorem testArmed (hP : LaneOps routed P) (h : s.Every P) (n : LaneId) : (s.testArmed n).Every P := by
  unfold State.testArmed
  split
  · split
    · split
      · dsimp only
        split
        · exact enterFilling hP (reserve (setHold hP h n _) n) n 1
        · exact enterGangWait hP (reserve (setHold hP h n _) n) n _
      · exact setHold hP h n _
    · exact setHold hP h n _
  · exact h

theorem takeUp (hP : LaneOps routed P) (h : s.Every P) (n : LaneId) : (s.takeUp n).Every P := by
  unfold State.takeUp
  split
  · split
    · exact h
    · exact testArmed hP (enterState hP (h.onHead n _) n .armed) n
  · exact h

theorem applyPending (hP : LaneOps routed P) (h : s.Every P) (n : LaneId) : (s.applyPending n).Every P := by
  unfold State.applyPending
  split
  · exact raiseNoteIf (h.putLane (hP.apply n _ ‹_› (h n))) n _
  · exact h

theorem enterIdle (hP : LaneOps routed P) (h : s.Every P) (n : LaneId) : (s.enterIdle n).Every P :=
  takeUp hP (applyPending hP (enterState hP (onSeq hP h n
    (f := fun _ q => { q with holdCause := .none, faultCause := .none }) fun _ _ => rfl) n .idle) n) n

theorem enterFault (hP : LaneOps routed P) (h : s.Every P) (n : LaneId) (c : FaultCause) :
    (s.enterFault n c).Every P := by
  have h0 : (s.withdrawPosition n).Every P := h
  unfold State.enterFault
  refine endWithRecord (enterState hP (onSeq hP ?_ n
    (f := fun _ q => { q with
      holdCause := .none, faultCause := c, openTimer := none, closeTimer := none, settleTimer := none,
      fallTimer := none, gangTimer := none }) fun _ _ => rfl) n .fault) n .faulted
  repeat' split
  · exact closeCompartment hP h0 n _
  · exact h0
  · exact h0

theorem faultClosingAll (hP : LaneOps routed P) (h : s.Every P) (n : LaneId) (c : FaultCause) :
    (s.faultClosingAll n c).Every P :=
  enterFault hP ((h.placeHeadClose n).placeIsolationClose n) n c

theorem cutOff (hP : LaneOps routed P) (h : s.Every P) (n : LaneId) (c : CutCause) : (s.cutOff n c).Every P := by
  have h0 : ((s.placeHeadClose n).withdrawPosition n).Every P := h.placeHeadClose n
  exact enterState hP (onSeq hP h0 n (f := fun l q => { q with
    openTimer := none
    closeTimer := some (((s.placeHeadClose n).withdrawPosition n).startTimer
      (((s.placeHeadClose n).withdrawPosition n).lane n).params.confirmTime)
    closeRetries := 0
    cutoff := some { grams := l.integ.grams, regime := l.cls.active, cause := c } }) fun _ _ => rfl) n .cutoff

theorem enterSettling (hP : LaneOps routed P) (h : s.Every P) (n : LaneId) : (s.enterSettling n).Every P := by
  unfold State.enterSettling
  exact enterState hP (onSeq hP h n (f := fun _ q => { q with
    closeTimer := none, settleTimer := some (s.startTimer (s.lane n).params.settleTime)
    fallTimer := s.startFallTimer (s.lane n).params.fallTime, quietRun := 0 }) fun _ _ => rfl) n .settling

theorem enterIndexing (hP : LaneOps routed P) (h : s.Every P) (n : LaneId) : (s.enterIndexing n).Every P := by
  unfold State.enterIndexing
  exact enterState hP (onSeq hP h n (f := fun _ q => { q with liftMark := false, holdCause := .noVehicle })
    fun _ _ => rfl) n .indexing

theorem endOrder (hP : LaneOps routed P) (h : s.Every P) (n : LaneId) (o : OrderOutcome) :
    (s.endOrder n o).Every P := by
  unfold State.endOrder
  split
  · refine enterIdle hP (endWithRecord ?_ n o) n
    split
    · exact h.onLane fun l hl => hP.recon n l _ hl
    · exact h
  · exact h

theorem endSettling (hP : LaneOps routed P) (h : s.Every P) (n : LaneId) : (s.endSettling n).Every P := by
  unfold State.endSettling
  split
  · rename_i o _
    have h0 := hP.learn n _ o.cancelNoted ((s.lane n).settledResult o.targetKg false) (h n)
    have h1 : P n (((s.lane n).learn o.cancelNoted ((s.lane n).settledResult o.targetKg false)).1.onSeq fun q =>
        { q with settleTimer := none, fallTimer := none }) := hP.seq n _ _ h0 rfl rfl
    dsimp only
    split
    · exact endOrder hP (closeCompartment hP (h.putLane h1) n _) n _
    · exact enterIndexing hP (closeCompartment hP (h.putLane h1) n _) n
  · exact h

theorem decidePouring (hP : LaneOps routed P) (h : s.Every P) (n : LaneId) (r : SampleRecord) (fig : Figures) :
    (s.decidePouring n r fig).Every P := by
  have h0 : (s.onLane n fun l =>
      if l.params.closedBand < r.gate then l.onSeq fun q => { q with openTimer := none } else l).Every P :=
    h.onLane fun l hl => by
      split
      · exact hP.seq n l _ hl rfl rfl
      · exact hl
  unfold State.decidePouring
  dsimp only
  repeat' split
  · exact faultClosingAll hP h0 n _
  · exact cutOff hP h0 n _
  · exact cutOff hP h0 n _
  · exact cutOff hP h0 n _
  · refine placePosition (enterState hP (h0.onLane fun l hl => ?_) n .trickle) n _
    exact hP.seq n l _ hl rfl rfl
  · exact h0

theorem decideSettling (hP : LaneOps routed P) (h : s.Every P) (n : LaneId) : (s.decideSettling n).Every P := by
  unfold State.decideSettling
  extract_lets l quiet t
  have h0 : t.Every P := onSeq hP h n (f := fun _ q => { q with quietRun := quiet }) fun _ _ => rfl
  split
  · exact endSettling hP h0 n
  · exact h0

theorem decideIndexing (hP : LaneOps routed P) (h : s.Every P) (n : LaneId) : (s.decideIndexing n).Every P := by
  unfold State.decideIndexing
  repeat' split
  · exact enterFilling hP h n _
  · exact h
  · exact setHold hP h n _

theorem decideGangWait (hP : LaneOps routed P) (h : s.Every P) (n : LaneId) : (s.decideGangWait n).Every P := by
  unfold State.decideGangWait
  split
  · exact h
  · exact dropOut hP h n _

theorem stage5Tests (hP : LaneOps routed P) (h : s.Every P) (n : LaneId) (r : SampleRecord) (fig : Figures) :
    (s.stage5Tests n r fig).Every P := by
  unfold State.stage5Tests
  repeat' split
  all_goals first
    | exact h
    | exact takeUp hP h n
    | exact testArmed hP h n
    | exact decideGangWait hP h n
    | exact decidePouring hP h n r fig
    | exact enterSettling hP h n
    | exact decideSettling hP h n
    | exact decideIndexing hP h n

theorem regimeCommand (hP : LaneOps routed P) (h : s.Every P) (n : LaneId) (left : Regime) :
    (s.regimeCommand n left).Every P := by
  unfold State.regimeCommand
  split
  · exact placePosition (onSeq hP h n (f := fun _ q => { q with wanted := some _ }) fun _ _ => rfl) n _
  · exact h

theorem stage5 (hP : LaneOps routed P) (h : s.Every P) (n : LaneId) (r : SampleRecord) (left : Option Regime)
    (fig : Figures) : (s.stage5 n r left fig).Every P := by
  unfold State.stage5
  dsimp only
  repeat' split
  · exact regimeCommand hP (stage5Tests hP h n r fig) n _
  · exact stage5Tests hP h n r fig
  · exact stage5Tests hP h n r fig

theorem contact (hP : LaneOps routed P) (h : s.Every P) (n : LaneId) : (s.contact n).Every P := by
  unfold State.contact
  exact raiseNoteIf (onSeq hP h n (f := fun _ q => { q with
    silenceTimer := some (s.startTimer (s.lane n).params.silenceTime), silentMark := false }) fun _ _ => rfl) n _

theorem laterStages (hP : LaneOps routed P) (h : s.Every P) (n : LaneId) (r : SampleRecord) :
    (s.laterStages n r).Every P := by
  have h2 : (s.stage2 n r).Every P := raiseNoteIf (h.putLane (hP.stage2 n _ r (h n))) n _
  have h3 : ((s.stage2 n r).stage3 n r).Every P := raiseNoteIf (h2.putLane (hP.stage3 n _ r (h2 n))) n _
  have h4 := h3.putLane (hP.stage4 n _ r (((s.stage2 n r).stage3 n r).activeTarget n) (h3 n))
  unfold State.laterStages
  exact stage5 hP h4 n r _ _

end State.Every

/-- Stage 1 keeps what its parts keep. -/
theorem LaneOps.stage1 (hP : LaneOps routed P) (n : LaneId) (l : Lane) (m : Meas) (hm : m.gate ≤ 1000) (h : P n l) :
    P n (l.stage1 m).1 := by
  unfold Lane.stage1
  split
  · exact hP.condition n l m true 0 hm h
  · rename_i prev _
    dsimp only
    split
    · exact hP.counters n l _ (fun hb => ⟨hb.1, bump_le _, hb.2.2⟩) h
    · split
      · have h1 := hP.counters n l { l.counters with gaps := bump l.counters.gaps }
          (fun hb => ⟨hb.1, hb.2.1, bump_le _, hb.2.2.2⟩) h
        have h2 : P n { l with
            counters := { l.counters with gaps := bump l.counters.gaps }
            seq := { l.seq with gap := l.seq.gap || l.running } } := hP.seq n _ _ h1 rfl rfl
        exact hP.condition n _ m false l.params.nominalInterval hm h2
      · exact hP.condition n l m false (m.timestamp - prev).toNat hm h

theorem readMeas_gate {payload : List Byte} {m : Meas} (h : readMeas payload = some m) : m.gate ≤ 1000 := by
  unfold readMeas at h
  split at h
  · obtain rfl := Option.some.inj h
    exact Nat.min_le_left _ _
  · cases h

namespace State.Every

theorem takeSample (hP : LaneOps routed P) (h : s.Every P) (n : LaneId) (m : Meas) (hm : m.gate ≤ 1000) :
    (s.takeSample n m).Every P := by
  have h1 := contact hP h n
  unfold State.takeSample
  dsimp only
  split
  · exact h1.onLane fun l hl => hP.report n l m hm hl
  · have h2 := h1.putLane (hP.stage1 n _ m hm (h1 n))
    split
    · exact laterStages hP h2 n _
    · exact h2

theorem handleMeasurement (hP : LaneOps routed P) (h : s.Every P) (n : LaneId) (f : Frame) :
    (s.handleMeasurement n f).Every P := by
  unfold State.handleMeasurement
  split
  · exact h
  · split
    · exact forwardUp ((takeSample hP h n _ (readMeas_gate ‹_›)).onLane fun l hl => hP.marks n l false l.screenedMark hl) _
    · exact forwardUp (h.onLane fun l hl =>
        hP.counters n l { l.counters with formErrors := bump l.counters.formErrors }
          (fun hb => ⟨hb.1, hb.2.1, hb.2.2.1, hb.2.2.2.1, bump_le _, hb.2.2.2.2.2⟩) hl) _

theorem atExpiry (h : s.Every P) (t : Timer) : (s.atExpiry t).Every P := by
  unfold State.atExpiry
  split <;> exact h

theorem silenceReaction (hP : LaneOps routed P) (h : s.Every P) (n : LaneId) : (s.silenceReaction n).Every P := by
  unfold State.silenceReaction
  repeat' split
  all_goals first
    | exact h
    | exact setHold hP h n _
    | exact dropOut hP h n _
    | exact faultClosingAll hP h n _
    | exact enterFault hP h n _

theorem silenceExpiry (hP : LaneOps routed P) (h : s.Every P) (n : LaneId) : (s.silenceExpiry n).Every P := by
  unfold State.silenceExpiry
  split
  · exact silenceReaction hP (raiseNote ((h.atExpiry _).onLane fun l hl => hP.silenced n l hl) n) n
  · exact h

theorem openExpiry (hP : LaneOps routed P) (h : s.Every P) (n : LaneId) : (s.openExpiry n).Every P := by
  unfold State.openExpiry
  split
  · have h1 := fun t => onSeq hP (h.atExpiry t) n (f := fun _ q => { q with openTimer := none }) fun _ _ => rfl
    dsimp only
    split
    · split
      · have h2 := fun t => onSeq hP (h1 t) n (f := fun _ q => { q with
          openRetries := q.openRetries + 1
          openTimer := some (((s.atExpiry t).onLane n fun l => l.onSeq fun q => { q with openTimer := none }).startTimer
            (((s.atExpiry t).onLane n fun l => l.onSeq fun q => { q with openTimer := none }).lane n).params.confirmTime) })
          fun _ _ => rfl
        split
        · exact placePosition (h2 _) n _
        · exact h2 _
      · exact enterFault hP (placeHeadClose (h1 _) n) n _
    · exact h1 _
  · exact h

theorem closeExpiry (hP : LaneOps routed P) (h : s.Every P) (n : LaneId) : (s.closeExpiry n).Every P := by
  unfold State.closeExpiry
  split
  · have h1 := fun t => onSeq hP (h.atExpiry t) n (f := fun _ q => { q with closeTimer := none }) fun _ _ => rfl
    dsimp only
    repeat' split
    all_goals first
      | exact h1 _
      | exact enterFault hP (placeIsolationClose (h1 _) n) n _
      | skip
    · exact onLane (placeHeadClose (h1 _) n) fun l hl => hP.seq n l _ hl rfl rfl
  · exact h

end State.Every

end Sys2Proof.Machine
end

