-- ==== Sys2Proof/Laws/Commands.lean ====
section
/-! SUPPORT. The commands' part of the lane rule: a property of lane engines that `LaneOps` keeps is kept by every command. -/

namespace Sys2Proof.Machine

/-- Every owner's decision. -/
def decisions : List (Asked → State → Decision) :=
  [decideIdent, decideRouteSet, decideRouteClear, decideRouteRead, decideParamSet, decideCurveSet, decideCommit,
    decideBankRead, decideLaneMode, decideZeroCal, decideOrderPost, decideOrderCancel, decideOrderList, decideLaneRead,
    decideRecordTake, decideScaleResult, decideFaultClear, decideTotalClear, decideCountersRead, decideRestart,
    decideUnknown]

theorem decisionOf_mem (kind : Byte) : decisionOf kind ∈ decisions := by
  unfold decisionOf decisions
  split <;> simp

variable {routed : LaneId → Prop} {P : LaneId → Lane → Prop} {s : State}

namespace State.Every

/-! ### Timer expiries and the completion of a restart -/

theorem fallExpiry (hP : LaneOps routed P) (h : s.Every P) (n : LaneId) : (s.fallExpiry n).Every P := by
  unfold State.fallExpiry
  split
  · exact onSeq hP (h.atExpiry _) n (f := fun _ q => { q with fallTimer := none }) fun _ _ => rfl
  · exact h

theorem settleExpiry (hP : LaneOps routed P) (h : s.Every P) (n : LaneId) : (s.settleExpiry n).Every P := by
  unfold State.settleExpiry
  split
  · have h1 := fun t => onSeq hP (h.atExpiry t) n (f := fun _ q => { q with settleTimer := none }) fun _ _ => rfl
    dsimp only
    split
    · exact endSettling hP (h1 _) n
    · exact h1 _
  · exact h

theorem gangExpiry (hP : LaneOps routed P) (h : s.Every P) (n : LaneId) : (s.gangExpiry n).Every P := by
  unfold State.gangExpiry
  split
  · have h1 := fun t => onSeq hP (h.atExpiry t) n (f := fun _ q => { q with gangTimer := none }) fun _ _ => rfl
    dsimp only
    split
    · exact endOrder hP (h1 _) n _
    · exact h1 _
  · exact h

theorem restarted (hP : LaneOps routed P) (h : s.Every P) : s.restarted.Every P := fun n => by
  have := hP.restarted n _ s.clock (h n)
  cases n <;> exact this

theorem completeRestart (hP : LaneOps routed P) (h : s.Every P) (r : RestartRecord) (c : Completion) :
    (s.completeRestart r c).Every P :=
  restarted hP h

theorem boundExpiry (hP : LaneOps routed P) (h : s.Every P) : s.boundExpiry.Every P := by
  unfold State.boundExpiry
  split
  · exact completeRestart hP (h.atExpiry _) _ _
  · exact h

theorem clearNotes (hP : LaneOps routed P) (h : s.Every P) : s.clearNotes.Every P := fun n => by
  have := hP.marks n _ (s.lane n).resumeMark false (h n)
  cases n <;> exact this

theorem closeForRestart (h : s.Every P) (n : LaneId) : (s.closeForRestart n).Every P := by
  unfold State.closeForRestart
  split
  · exact (h.placeHeadClose n).placeIsolationClose n
  · exact h

theorem acceptRestart (hP : LaneOps routed P) (h : s.Every P) (src hi lo : Byte) (force : Nat) :
    (s.acceptRestart src hi lo force).Every P := by
  have h1 : (allLanes.foldl State.closeForRestart s).Every P :=
    (((h.closeForRestart .lane0).closeForRestart .lane1).closeForRestart .lane2).closeForRestart .lane3
  unfold State.acceptRestart
  generalize allLanes.foldl State.closeForRestart s = u at h1 ⊢
  exact clearNotes hP h1

/-! ### Transmitters -/

theorem selectDp (h : s.Every P) : s.selectDp.Every P := by
  have h1 : ∀ t, s.serveSlots = some t → t.Every P := by
    intro t ht
    obtain ⟨p, -, rfl⟩ := Option.map_eq_some_iff.mp ht
    exact h
  have h2 : ∀ t, s.serveForwardDown = some t → t.Every P := by
    intro t ht
    unfold State.serveForwardDown at ht
    split at ht <;> cases ht
    exact h
  unfold State.selectDp
  split
  · exact h
  · split
    · exact h
    · unfold alternate
      split <;> cases hs : s.serveSlots <;> cases hf : s.serveForwardDown <;>
        first | exact h | exact h1 _ hs | exact h2 _ hf

theorem sendNote (hP : LaneOps routed P) (h : s.Every P) (x : NoteSlot) : (s.sendNote x).Every P := by
  cases x with
  | lane n => exact onLane h fun l hl => hP.marks n l l.resumeMark false hl
  | unit => exact h

theorem selectUp (hP : LaneOps routed P) (h : s.Every P) : s.selectUp.Every P := by
  have h1 : ∀ t, s.serveOwn = some t → t.Every P := by
    intro t ht
    unfold State.serveOwn at ht
    repeat' split at ht
    · cases ht
      exact h
    · cases ht
    · obtain ⟨x, -, rfl⟩ := Option.map_eq_some_iff.mp ht
      exact sendNote hP h x
  have h2 : ∀ t, s.serveForwardUp = some t → t.Every P := by
    intro t ht
    unfold State.serveForwardUp at ht
    split at ht <;> cases ht
    exact h
  unfold State.selectUp
  split
  · exact h
  · unfold alternate
    split <;> cases hs : s.serveOwn <;> cases hf : s.serveForwardUp <;>
      first | exact h | exact h1 _ hs | exact h2 _ hf

theorem transmitEnd (hP : LaneOps routed P) (h : s.Every P) (p : Port) : (s.transmitEnd p).Every P := by
  cases p with
  | up => exact h
  | dp =>
    show s.transmitEndDp.Every P
    unfold State.transmitEndDp
    split
    · exact h
    · have ht : State.Every P { s with dp := { s.dp with
          sending := none, urgent := s.dp.urgent.filter fun e => !e.sending } } := h
      dsimp only
      repeat' split
      · exact completeRestart hP ht _ _
      · exact ht
      · exact ht

/-! ### Receive lines and the switch -/

theorem putPort (h : s.Every P) (p : Port) (c : PortCommon) : (s.putPort p c).Every P := by cases p <;> exact h

theorem startDelimiter (h : s.Every P) (p : Port) : (s.startDelimiter p).Every P := by
  unfold State.startDelimiter
  dsimp only
  split <;> exact putPort h p _

theorem lineBreak (h : s.Every P) (p : Port) : (s.lineBreak p).Every P := by
  unfold State.lineBreak
  split
  · exact h
  · exact putPort h p _

theorem linkDown (h : s.Every P) (p : Port) : (s.linkDown p).Every P := by
  unfold State.linkDown
  split
  · exact putPort h p _
  · exact h

theorem endDelimiter (h : s.Every P) (p : Port) : (s.endDelimiter p).Every P := by
  unfold State.endDelimiter
  split
  · exact h
  · dsimp only
    split
    · exact putPort h p _
    · exact putPort h p _
    · exact putPort h p _

theorem blockFrame (hP : LaneOps routed P) (h : s.Every P) (n : LaneId) : (s.blockFrame n).Every P := by
  refine raiseNote (h.onLane fun l hl => ?_) n
  have h1 := hP.counters n l { l.counters with screened := bump l.counters.screened }
    (fun hb => ⟨hb.1, hb.2.1, hb.2.2.1, hb.2.2.2.1, hb.2.2.2.2.1, bump_le _⟩) hl
  exact hP.marks n _ l.resumeMark true h1

theorem screen (hP : LaneOps routed P) (h : s.Every P) (n : LaneId) (f : Frame) : (s.screen n f).Every P := by
  unfold State.screen
  dsimp only
  repeat' split
  · exact forwardDown (cutOff hP h n _) f
  · exact forwardDown h f
  · exact blockFrame hP h n
  · exact forwardDown h f

theorem classify (hP : LaneOps routed P) (h : s.Every P) (p : Port) (f : Frame) : (s.classify p f).Every P := by
  cases p with
  | up =>
    show (if s.transparent then s.forwardDown f else s.classifyUp f).Every P
    unfold State.classifyUp
    repeat' split
    all_goals first
      | exact h
      | exact forwardDown h f
      | exact screen hP h _ f
  | dp =>
    show (if s.transparent then s.forwardUp f else s.classifyDp f).Every P
    unfold State.classifyDp
    repeat' split
    all_goals first
      | exact h
      | exact forwardUp h f
      | exact forwardUp (h.onLane fun l hl =>
          hP.counters _ l { l.counters with formErrors := bump l.counters.formErrors }
            (fun hb => ⟨hb.1, hb.2.1, hb.2.2.1, hb.2.2.2.1, bump_le _, hb.2.2.2.2.2⟩) hl) f

/-! ### Requests -/

theorem deliver {d : Decision} (h : d.state.Every P) (kind : Byte) (a : Asked) : (d.deliver kind a).Every P := by
  unfold Decision.deliver
  split <;> exact h

theorem respond (h : s.Every P) (kind src : Byte) (body : List Byte) {decide : Asked → State → Decision}
    (hd : ∀ (a : Asked) (t : State), t.routes = s.routes → t.Every P → (decide a t).state.Every P) :
    (s.respond kind src body decide).Every P := by
  unfold State.respond
  split
  · exact h
  · extract_lets t
    have ht : t.Every P := h
    split
    · exact ht
    · unfold State.answer
      extract_lets u
      have hu : u.Every P := h
      split
      · exact deliver (hd _ u rfl hu) _ _
      · exact hu
      · exact hu

theorem withArgs {α : Type} (h : s.Every P) (x : Option α) {f : α → Decision} (hf : ∀ a, x = some a → (f a).state.Every P) :
    (withArgs s x f).state.Every P := by
  cases x with
  | some a => exact hf a rfl
  | none => exact h

theorem withLane (h : s.Every P) (k : Nat) {f : LaneId → Decision} (hf : ∀ n, (f n).state.Every P) :
    (withLane s k f).state.Every P := by
  unfold Machine.withLane
  split
  · exact hf _
  · exact h

theorem decideRoute (h : s.Every P) (i : Nat) (e : RouteEntry) : (s.decideRoute i e).state.Every P := by
  unfold State.decideRoute
  repeat' split
  all_goals exact h

theorem decideParam (hP : LaneOps routed P) (h : s.Every P) (n : LaneId) {id v : Nat} (hid : id ≤ 27)
    (hc : (s.lane n).flow.commitPending = false) : (s.setParam n id v).state.Every P := by
  unfold State.setParam
  exact h.putLane (hP.param n _ id v hid hc (h n))

theorem commitLane (hP : LaneOps routed P) (h : s.Every P) (n : LaneId)
    (hv : (s.lane n).flow.staged.firstFailure = none) : (s.commitLane n).state.Every P := by
  have h1 : (s.onLane n fun l => { l with flow := { l.flow with commitPending := true } }).Every P :=
    h.putLane (hP.commit n _ hv (h n))
  unfold State.commitLane
  dsimp only
  split
  · refine raiseNoteIf (h1.putLane (hP.apply n _ ?_ (h1 n))) n _
    simp
  · exact h1

theorem settleMode (hP : LaneOps routed P) (h : s.Every P) (n : LaneId) (m : Mode) : (s.settleMode n m).Every P := by
  cases m
  · exact h.onLane fun l hl => hP.noFlow n l hl
  · exact h.onLane fun l hl => hP.overrange n l false hl
  · exact enterIdle hP h n

theorem changeMode (hP : LaneOps (fun n => (s.headOf n).isSome = true) P) (h : s.Every P) (n : LaneId) (m : Mode) {t : State}
    (ht : s.changeMode n m = some t) : t.Every P := by
  have setMode : ∀ u : State, u.Every P →
      ((u.lane n).seq.mode = .outOfService → (u.lane n).flow.active.curvesValid = true ∧ (s.headOf n).isSome = true) →
      (u.setMode n m).Every P := fun u hu hm => raiseNote (hu.putLane (hP.mode n _ m hm (hu n))) n
  unfold State.changeMode at ht
  split at ht
  · split at ht <;> cases ht
    rename_i hs
    simp only [State.mayEnterService, Bool.and_eq_true] at hs
    refine settleMode hP (setMode _ (h.onLane fun l hl => hP.enterService n l hl) fun _ => ?_) n m
    rw [State.onLane_lane_self]
    exact hs
  · rename_i hm
    cases ht
    exact settleMode hP (setMode _ h fun h' => by rw [hm] at h'; cases h') n m
  · rename_i hm
    split at ht <;> cases ht
    have h1 : ((s.returnReservation n).putQueue n []).Every P := h.returnReservation n
    refine settleMode hP (applyPending hP (setMode _ (onSeq hP h1 n (f := fun _ q =>
      { q with state := .idle, holdCause := .none, faultCause := .none, gangTimer := none }) fun _ _ => rfl)
      fun h' => ?_) n) n m
    have h2 : (s.returnReservation n).lane n = s.lane n := by
      unfold State.returnReservation State.onHead
      repeat' split
      all_goals rfl
    simp [Lane.onSeq, h2, hm] at h'

theorem cancelActive (hP : LaneOps routed P) (h : s.Every P) (n : LaneId) {t : State} {d : Disposition}
    (ht : s.cancelActive n = some (t, d)) : t.Every P := by
  unfold State.cancelActive at ht
  split at ht <;> cases ht
  · exact enterIdle (s := s.putQueue n ((s.queue n).drop 1)) hP h n
  · exact endOrder hP (onSeq hP h n (f := fun _ q => { q with gangTimer := none }) fun _ _ => rfl) n _
  · exact cutOff hP h n _
  · exact cutOff hP h n _
  · exact onHead h n _
  · exact onHead h n _
  · exact endOrder hP h n _

theorem cancelIn (hP : LaneOps routed P) (h : s.Every P) (n : LaneId) (tag : Nat) : (s.cancelIn n tag).state.Every P := by
  unfold State.cancelIn
  repeat' split
  · exact cancelActive hP h n ‹_›
  all_goals exact h

theorem scaleLane (hP : LaneOps routed P) (h : s.Every P) (n : LaneId) (e : ReconEntry) (kg : Nat) :
    (s.scaleLane n e kg).state.Every P :=
  h.putLane (hP.reconcile n _ e kg (h n))

/-- Every decision keeps it. -/
theorem decision (hP : LaneOps (fun n => (s.headOf n).isSome = true) P) (h : s.Every P) (a : Asked)
    {d : Asked → State → Decision} (hd : d ∈ decisions) : (d a s).state.Every P := by
  simp only [decisions, List.mem_cons, List.not_mem_nil, or_false] at hd
  rcases hd with rfl | rfl | rfl | rfl | rfl | rfl | rfl | rfl | rfl | rfl | rfl | rfl | rfl | rfl | rfl | rfl | rfl
    | rfl | rfl | rfl | rfl
  · exact h
  · refine withArgs h _ fun r _ => ?_
    repeat' split
    · exact h
    · exact decideRoute h _ _
    · exact h
  · refine withArgs h _ fun r _ => ?_
    repeat' split
    all_goals exact h
  · exact h
  · refine withArgs h _ fun r _ => withLane h _ fun n => ?_
    repeat' split
    · exact h
    · exact h
    · exact decideParam hP h n (by omega) (Bool.eq_false_iff.mpr ‹_›)
  · refine withArgs h _ fun r _ => withLane h _ fun n => ?_
    repeat' split
    · exact h
    · exact h
    · exact h
    · rename_i hr hc
      simp only [not_or] at hr
      refine h.putLane (hP.slot n _ _ _ _ { force := r.force, flow := r.flow } ?_ ?_ ?_ ?_ (Bool.eq_false_iff.mpr hc) (h n))
      · omega
      · omega
      · show r.force ≤ 32767
        omega
      · show r.flow ≤ 200000
        omega
  · refine withArgs h _ fun r _ => withLane h _ fun n => ?_
    repeat' split
    · exact h
    · exact h
    · exact commitLane hP h n ‹_›
  · refine withArgs h _ fun r _ => withLane h _ fun n => ?_
    split <;> exact h
  · refine withArgs h _ fun r _ => withLane h _ fun n => ?_
    repeat' split
    · exact h
    · exact h
    · exact changeMode hP h n _ ‹_›
    · exact h
  · refine withArgs h _ fun r _ => withLane h _ fun n => ?_
    split
    · exact h.onLane fun l hl => hP.calibrate n l hl
    · exact h
  · refine withArgs h _ fun r _ => withLane h _ fun n => ?_
    repeat' split
    all_goals exact h
  · refine withArgs h _ fun r _ => ?_
    repeat' split
    · exact h
    · exact cancelIn hP h _ _
    · exact h
  · exact withArgs h _ fun r _ => withLane h _ fun n => h
  · exact withArgs h _ fun r _ => withLane h _ fun n => h
  · refine withArgs h _ fun r _ => ?_
    repeat' split
    · exact h
    · exact h
    · exact h
    · exact h
    · show (State.dropRecord _ _).Every P
      unfold State.dropRecord
      split <;> exact h
  · refine withArgs h _ fun r _ => ?_
    repeat' split
    · exact h
    · exact h
    · exact scaleLane hP h _ _ _
    · exact h
  · refine withArgs h _ fun r _ => withLane h _ fun n => ?_
    split
    · exact enterIdle hP h n
    · exact h
  · exact withArgs h _ fun r _ => withLane h _ fun n =>
      h.onLane fun l hl => hP.overrange n _ _ (hP.total n l hl)
  · refine withArgs h _ fun r _ => ?_
    split
    · rename_i g _
      show (if clearFlagOf r.clear = true then s.zeroCounters g else s).Every P
      split
      · cases g
        · exact h
        · exact h.onLane fun l hl => hP.counters _ l _ (fun _ => by simp [LaneCounters.Bounded, LaneCounters.zero]) hl
        · exact h
      · exact h
    · exact h
  · refine withArgs h _ fun r _ => ?_
    repeat' split
    · exact h
    · exact h
    · exact h
    · exact acceptRestart hP h _ _ _ _
    · exact restarted hP h
  · exact h

end State.Every

/-- What `LaneOps` keeps, every command keeps. -/
theorem exec_every {s t : State} (c : Instr) (hP : LaneOps (fun n => (s.headOf n).isSome = true) P) (h : s.Every P)
    (he : exec c s = .next t) : t.Every P := by
  have req : ∀ (kind src : Byte) (body : List Byte), (s.respond kind src body (decisionOf kind)).Every P :=
    fun kind src body => h.respond kind src body fun a u hu hE =>
      State.Every.decision (by simpa only [State.headOf, hu] using hP) hE a (decisionOf_mem kind)
  have running : ∀ f : State → State, (f s).Every P → (s.whileRunning f).Every P := by
    intro f hf
    unfold State.whileRunning
    split
    · exact h
    · exact hf
  cases c <;> injection he with he <;> subst he
  case powerOn => intro n; cases n <;> exact hP.powerOn _
  case resetPinAssert => exact h
  case resetPinRelease => intro n; cases n <;> exact hP.powerOn _
  case startDelimiter p => exact running _ (h.startDelimiter p)
  case overlongFrame p data => exact running _ (h.putPort p _)
  case lineBreak p => exact running _ (h.lineBreak p)
  case linkDown p => exact running _ (h.linkDown p)
  case frameEnd p data => exact running _ (State.Every.endDelimiter (h.putPort p _) p)
  case frameClassify p f =>
    refine running _ ?_
    split
    · exact State.Every.classify (s := { s with toSwitch := s.toSwitch.erase (p, f) }) hP h p f
    · exact h
  case sample n f =>
    refine running _ ?_
    split
    · exact State.Every.handleMeasurement (s := { s with toLanes := s.toLanes.erase (n, f) }) hP h n f
    · exact h
  case silenceExpiry n => exact running _ (State.Every.silenceExpiry hP h n)
  case openTimerExpiry n => exact running _ (State.Every.openExpiry hP h n)
  case closeTimerExpiry n => exact running _ (State.Every.closeExpiry hP h n)
  case fallTimerExpiry n => exact running _ (State.Every.fallExpiry hP h n)
  case settleTimerExpiry n => exact running _ (State.Every.settleExpiry hP h n)
  case gangTimerExpiry n => exact running _ (State.Every.gangExpiry hP h n)
  case restartBoundExpiry => exact running _ (State.Every.boundExpiry hP h)
  case dpSelection => exact running _ h.selectDp
  case upSelection => exact running _ (State.Every.selectUp hP h)
  case transmitEnd p => exact running _ (State.Every.transmitEnd hP h p)
  case unknownRequest src payload =>
    refine running _ ?_
    show (s.respondPayload src payload).Every P
    cases payload with
    | nil =>
      show (if _ then _ else _ : State).Every P
      repeat' split
      all_goals exact h
    | cons kind body => exact req kind src body
  all_goals exact running _ (req _ _ _)

/-- What `LaneOps` keeps, every step keeps. -/
theorem step_every {s t : State} (hP : LaneOps (fun n => (s.headOf n).isSome = true) P) (h : s.Every P)
    (he : step s = .next t) : t.Every P := by
  unfold step at he
  split at he
  · rename_i c rest _
    exact exec_every (s := { s with pending := rest }) c hP h he
  · injection he with he
    subst he
    unfold State.tick
    split <;> exact h

end Sys2Proof.Machine
end

