-- ==== Sys2Proof/Laws/Ops.lean ====
section
/-! SUPPORT. What the conditional operations on a lane leave alone, one lemma per field, and what each does where its
condition holds. -/

namespace Sys2Proof.Machine


/-! ### The head of a queue changed -/

@[simp] theorem State.onHead_straps (s : State) (n : LaneId) (f : Order → Order) :
    (s.onHead n f).straps = s.straps := by
  unfold State.onHead
  repeat' split
  all_goals rfl
@[simp] theorem State.onHead_held (s : State) (n : LaneId) (f : Order → Order) :
    (s.onHead n f).held = s.held := by
  unfold State.onHead
  repeat' split
  all_goals rfl
@[simp] theorem State.onHead_clock (s : State) (n : LaneId) (f : Order → Order) :
    (s.onHead n f).clock = s.clock := by
  unfold State.onHead
  repeat' split
  all_goals rfl
@[simp] theorem State.onHead_routes (s : State) (n : LaneId) (f : Order → Order) :
    (s.onHead n f).routes = s.routes := by
  unfold State.onHead
  repeat' split
  all_goals rfl
@[simp] theorem State.onHead_lanes (s : State) (n : LaneId) (f : Order → Order) :
    (s.onHead n f).lanes = s.lanes := by
  unfold State.onHead
  repeat' split
  all_goals rfl
@[simp] theorem State.onHead_records (s : State) (n : LaneId) (f : Order → Order) :
    (s.onHead n f).records = s.records := by
  unfold State.onHead
  repeat' split
  all_goals rfl
@[simp] theorem State.onHead_reservations (s : State) (n : LaneId) (f : Order → Order) :
    (s.onHead n f).reservations = s.reservations := by
  unfold State.onHead
  repeat' split
  all_goals rfl
@[simp] theorem State.onHead_up (s : State) (n : LaneId) (f : Order → Order) :
    (s.onHead n f).up = s.up := by
  unfold State.onHead
  repeat' split
  all_goals rfl
@[simp] theorem State.onHead_dp (s : State) (n : LaneId) (f : Order → Order) :
    (s.onHead n f).dp = s.dp := by
  unfold State.onHead
  repeat' split
  all_goals rfl
@[simp] theorem State.onHead_controller (s : State) (n : LaneId) (f : Order → Order) :
    (s.onHead n f).controller = s.controller := by
  unfold State.onHead
  repeat' split
  all_goals rfl
@[simp] theorem State.onHead_restart (s : State) (n : LaneId) (f : Order → Order) :
    (s.onHead n f).restart = s.restart := by
  unfold State.onHead
  repeat' split
  all_goals rfl
@[simp] theorem State.onHead_unanswered (s : State) (n : LaneId) (f : Order → Order) :
    (s.onHead n f).unanswered = s.unanswered := by
  unfold State.onHead
  repeat' split
  all_goals rfl
@[simp] theorem State.onHead_wrongPort (s : State) (n : LaneId) (f : Order → Order) :
    (s.onHead n f).wrongPort = s.wrongPort := by
  unfold State.onHead
  repeat' split
  all_goals rfl
@[simp] theorem State.onHead_toSwitch (s : State) (n : LaneId) (f : Order → Order) :
    (s.onHead n f).toSwitch = s.toSwitch := by
  unfold State.onHead
  repeat' split
  all_goals rfl
@[simp] theorem State.onHead_toLanes (s : State) (n : LaneId) (f : Order → Order) :
    (s.onHead n f).toLanes = s.toLanes := by
  unfold State.onHead
  repeat' split
  all_goals rfl
@[simp] theorem State.onHead_toResponder (s : State) (n : LaneId) (f : Order → Order) :
    (s.onHead n f).toResponder = s.toResponder := by
  unfold State.onHead
  repeat' split
  all_goals rfl
@[simp] theorem State.onHead_pending (s : State) (n : LaneId) (f : Order → Order) :
    (s.onHead n f).pending = s.pending := by
  unfold State.onHead
  repeat' split
  all_goals rfl
@[simp] theorem State.onHead_lane (s : State) (n : LaneId) (f : Order → Order) (k : LaneId) :
    (s.onHead n f).lane k = s.lane k := by
  simp only [State.lane, State.onHead_lanes]
@[simp] theorem State.onHead_headOf (s : State) (n : LaneId) (f : Order → Order) (k : LaneId) :
    (s.onHead n f).headOf k = s.headOf k := by
  simp only [State.headOf, State.onHead_routes]
@[simp] theorem State.onHead_isolationOf (s : State) (n : LaneId) (f : Order → Order) (k : LaneId) :
    (s.onHead n f).isolationOf k = s.isolationOf k := by
  simp only [State.isolationOf, State.onHead_routes]
@[simp] theorem State.onHead_headLane (s : State) (n : LaneId) (f : Order → Order) (b' : Byte) :
    (s.onHead n f).headLane b' = s.headLane b' := by
  simp only [State.headLane, State.onHead_routes]
@[simp] theorem State.onHead_transparent (s : State) (n : LaneId) (f : Order → Order) :
    (s.onHead n f).transparent = s.transparent := by
  simp only [State.transparent, State.onHead_straps]
@[simp] theorem State.onHead_address (s : State) (n : LaneId) (f : Order → Order) :
    (s.onHead n f).address = s.address := by
  simp only [State.address, State.onHead_straps]
@[simp] theorem State.onHead_routeAt (s : State) (n : LaneId) (f : Order → Order) (i' : Nat) :
    (s.onHead n f).routeAt i' = s.routeAt i' := by
  simp only [State.routeAt, State.onHead_routes]
@[simp] theorem State.onHead_startTimer (s : State) (n : LaneId) (f : Order → Order) (i' : Nat) :
    (s.onHead n f).startTimer i' = s.startTimer i' := by
  simp only [State.startTimer, State.onHead_clock]
@[simp] theorem State.onHead_canReserve (s : State) (n : LaneId) (f : Order → Order) :
    (s.onHead n f).canReserve = s.canReserve := by
  simp only [State.canReserve, State.onHead_records, State.onHead_reservations]

/-! ### A note where it is due -/

@[simp] theorem State.raiseNoteIf_straps (s : State) (n : LaneId) (due : Bool) :
    (s.raiseNoteIf n due).straps = s.straps := by
  unfold State.raiseNoteIf
  repeat' split
  all_goals rfl
@[simp] theorem State.raiseNoteIf_held (s : State) (n : LaneId) (due : Bool) :
    (s.raiseNoteIf n due).held = s.held := by
  unfold State.raiseNoteIf
  repeat' split
  all_goals rfl
@[simp] theorem State.raiseNoteIf_clock (s : State) (n : LaneId) (due : Bool) :
    (s.raiseNoteIf n due).clock = s.clock := by
  unfold State.raiseNoteIf
  repeat' split
  all_goals rfl
@[simp] theorem State.raiseNoteIf_routes (s : State) (n : LaneId) (due : Bool) :
    (s.raiseNoteIf n due).routes = s.routes := by
  unfold State.raiseNoteIf
  repeat' split
  all_goals rfl
@[simp] theorem State.raiseNoteIf_lanes (s : State) (n : LaneId) (due : Bool) :
    (s.raiseNoteIf n due).lanes = s.lanes := by
  unfold State.raiseNoteIf
  repeat' split
  all_goals rfl
@[simp] theorem State.raiseNoteIf_orders (s : State) (n : LaneId) (due : Bool) :
    (s.raiseNoteIf n due).orders = s.orders := by
  unfold State.raiseNoteIf
  repeat' split
  all_goals rfl
@[simp] theorem State.raiseNoteIf_records (s : State) (n : LaneId) (due : Bool) :
    (s.raiseNoteIf n due).records = s.records := by
  unfold State.raiseNoteIf
  repeat' split
  all_goals rfl
@[simp] theorem State.raiseNoteIf_reservations (s : State) (n : LaneId) (due : Bool) :
    (s.raiseNoteIf n due).reservations = s.reservations := by
  unfold State.raiseNoteIf
  repeat' split
  all_goals rfl
@[simp] theorem State.raiseNoteIf_dp (s : State) (n : LaneId) (due : Bool) :
    (s.raiseNoteIf n due).dp = s.dp := by
  unfold State.raiseNoteIf
  repeat' split
  all_goals rfl
@[simp] theorem State.raiseNoteIf_controller (s : State) (n : LaneId) (due : Bool) :
    (s.raiseNoteIf n due).controller = s.controller := by
  unfold State.raiseNoteIf
  repeat' split
  all_goals rfl
@[simp] theorem State.raiseNoteIf_restart (s : State) (n : LaneId) (due : Bool) :
    (s.raiseNoteIf n due).restart = s.restart := by
  unfold State.raiseNoteIf
  repeat' split
  all_goals rfl
@[simp] theorem State.raiseNoteIf_unanswered (s : State) (n : LaneId) (due : Bool) :
    (s.raiseNoteIf n due).unanswered = s.unanswered := by
  unfold State.raiseNoteIf
  repeat' split
  all_goals rfl
@[simp] theorem State.raiseNoteIf_wrongPort (s : State) (n : LaneId) (due : Bool) :
    (s.raiseNoteIf n due).wrongPort = s.wrongPort := by
  unfold State.raiseNoteIf
  repeat' split
  all_goals rfl
@[simp] theorem State.raiseNoteIf_toSwitch (s : State) (n : LaneId) (due : Bool) :
    (s.raiseNoteIf n due).toSwitch = s.toSwitch := by
  unfold State.raiseNoteIf
  repeat' split
  all_goals rfl
@[simp] theorem State.raiseNoteIf_toLanes (s : State) (n : LaneId) (due : Bool) :
    (s.raiseNoteIf n due).toLanes = s.toLanes := by
  unfold State.raiseNoteIf
  repeat' split
  all_goals rfl
@[simp] theorem State.raiseNoteIf_toResponder (s : State) (n : LaneId) (due : Bool) :
    (s.raiseNoteIf n due).toResponder = s.toResponder := by
  unfold State.raiseNoteIf
  repeat' split
  all_goals rfl
@[simp] theorem State.raiseNoteIf_pending (s : State) (n : LaneId) (due : Bool) :
    (s.raiseNoteIf n due).pending = s.pending := by
  unfold State.raiseNoteIf
  repeat' split
  all_goals rfl
@[simp] theorem State.raiseNoteIf_up_common (s : State) (n : LaneId) (due : Bool) :
    (s.raiseNoteIf n due).up.common = s.up.common := by
  unfold State.raiseNoteIf
  repeat' split
  all_goals rfl
@[simp] theorem State.raiseNoteIf_up_sending (s : State) (n : LaneId) (due : Bool) :
    (s.raiseNoteIf n due).up.sending = s.up.sending := by
  unfold State.raiseNoteIf
  repeat' split
  all_goals rfl
@[simp] theorem State.raiseNoteIf_up_forward (s : State) (n : LaneId) (due : Bool) :
    (s.raiseNoteIf n due).up.forward = s.up.forward := by
  unfold State.raiseNoteIf
  repeat' split
  all_goals rfl
@[simp] theorem State.raiseNoteIf_up_replies (s : State) (n : LaneId) (due : Bool) :
    (s.raiseNoteIf n due).up.replies = s.up.replies := by
  unfold State.raiseNoteIf
  repeat' split
  all_goals rfl
@[simp] theorem State.raiseNoteIf_up_lastServed (s : State) (n : LaneId) (due : Bool) :
    (s.raiseNoteIf n due).up.lastServed = s.up.lastServed := by
  unfold State.raiseNoteIf
  repeat' split
  all_goals rfl
@[simp] theorem State.raiseNoteIf_up_lastNote (s : State) (n : LaneId) (due : Bool) :
    (s.raiseNoteIf n due).up.lastNote = s.up.lastNote := by
  unfold State.raiseNoteIf
  repeat' split
  all_goals rfl
@[simp] theorem State.raiseNoteIf_up_unitNote (s : State) (n : LaneId) (due : Bool) :
    (s.raiseNoteIf n due).up.unitNote = s.up.unitNote := by
  unfold State.raiseNoteIf
  repeat' split
  all_goals rfl
@[simp] theorem State.raiseNoteIf_lane (s : State) (n : LaneId) (due : Bool) (k : LaneId) :
    (s.raiseNoteIf n due).lane k = s.lane k := by
  simp only [State.lane, State.raiseNoteIf_lanes]
@[simp] theorem State.raiseNoteIf_queue (s : State) (n : LaneId) (due : Bool) (k : LaneId) :
    (s.raiseNoteIf n due).queue k = s.queue k := by
  simp only [State.queue, State.raiseNoteIf_orders]
@[simp] theorem State.raiseNoteIf_activeOrder (s : State) (n : LaneId) (due : Bool) (k : LaneId) :
    (s.raiseNoteIf n due).activeOrder k = s.activeOrder k := by
  simp only [State.activeOrder, State.queue, State.raiseNoteIf_orders]
@[simp] theorem State.raiseNoteIf_headOf (s : State) (n : LaneId) (due : Bool) (k : LaneId) :
    (s.raiseNoteIf n due).headOf k = s.headOf k := by
  simp only [State.headOf, State.raiseNoteIf_routes]
@[simp] theorem State.raiseNoteIf_isolationOf (s : State) (n : LaneId) (due : Bool) (k : LaneId) :
    (s.raiseNoteIf n due).isolationOf k = s.isolationOf k := by
  simp only [State.isolationOf, State.raiseNoteIf_routes]
@[simp] theorem State.raiseNoteIf_headLane (s : State) (n : LaneId) (due : Bool) (b' : Byte) :
    (s.raiseNoteIf n due).headLane b' = s.headLane b' := by
  simp only [State.headLane, State.raiseNoteIf_routes]
@[simp] theorem State.raiseNoteIf_transparent (s : State) (n : LaneId) (due : Bool) :
    (s.raiseNoteIf n due).transparent = s.transparent := by
  simp only [State.transparent, State.raiseNoteIf_straps]
@[simp] theorem State.raiseNoteIf_address (s : State) (n : LaneId) (due : Bool) :
    (s.raiseNoteIf n due).address = s.address := by
  simp only [State.address, State.raiseNoteIf_straps]
@[simp] theorem State.raiseNoteIf_routeAt (s : State) (n : LaneId) (due : Bool) (i' : Nat) :
    (s.raiseNoteIf n due).routeAt i' = s.routeAt i' := by
  simp only [State.routeAt, State.raiseNoteIf_routes]
@[simp] theorem State.raiseNoteIf_startTimer (s : State) (n : LaneId) (due : Bool) (i' : Nat) :
    (s.raiseNoteIf n due).startTimer i' = s.startTimer i' := by
  simp only [State.startTimer, State.raiseNoteIf_clock]
@[simp] theorem State.raiseNoteIf_canReserve (s : State) (n : LaneId) (due : Bool) :
    (s.raiseNoteIf n due).canReserve = s.canReserve := by
  simp only [State.canReserve, State.raiseNoteIf_records, State.raiseNoteIf_reservations]

/-! ### A position command placed -/

@[simp] theorem State.placePosition_straps (s : State) (n : LaneId) (position : Nat) :
    (s.placePosition n position).straps = s.straps := by
  unfold State.placePosition
  repeat' split
  all_goals rfl
@[simp] theorem State.placePosition_held (s : State) (n : LaneId) (position : Nat) :
    (s.placePosition n position).held = s.held := by
  unfold State.placePosition
  repeat' split
  all_goals rfl
@[simp] theorem State.placePosition_clock (s : State) (n : LaneId) (position : Nat) :
    (s.placePosition n position).clock = s.clock := by
  unfold State.placePosition
  repeat' split
  all_goals rfl
@[simp] theorem State.placePosition_routes (s : State) (n : LaneId) (position : Nat) :
    (s.placePosition n position).routes = s.routes := by
  unfold State.placePosition
  repeat' split
  all_goals rfl
@[simp] theorem State.placePosition_lanes (s : State) (n : LaneId) (position : Nat) :
    (s.placePosition n position).lanes = s.lanes := by
  unfold State.placePosition
  repeat' split
  all_goals rfl
@[simp] theorem State.placePosition_orders (s : State) (n : LaneId) (position : Nat) :
    (s.placePosition n position).orders = s.orders := by
  unfold State.placePosition
  repeat' split
  all_goals rfl
@[simp] theorem State.placePosition_records (s : State) (n : LaneId) (position : Nat) :
    (s.placePosition n position).records = s.records := by
  unfold State.placePosition
  repeat' split
  all_goals rfl
@[simp] theorem State.placePosition_reservations (s : State) (n : LaneId) (position : Nat) :
    (s.placePosition n position).reservations = s.reservations := by
  unfold State.placePosition
  repeat' split
  all_goals rfl
@[simp] theorem State.placePosition_up (s : State) (n : LaneId) (position : Nat) :
    (s.placePosition n position).up = s.up := by
  unfold State.placePosition
  repeat' split
  all_goals rfl
@[simp] theorem State.placePosition_controller (s : State) (n : LaneId) (position : Nat) :
    (s.placePosition n position).controller = s.controller := by
  unfold State.placePosition
  repeat' split
  all_goals rfl
@[simp] theorem State.placePosition_restart (s : State) (n : LaneId) (position : Nat) :
    (s.placePosition n position).restart = s.restart := by
  unfold State.placePosition
  repeat' split
  all_goals rfl
@[simp] theorem State.placePosition_unanswered (s : State) (n : LaneId) (position : Nat) :
    (s.placePosition n position).unanswered = s.unanswered := by
  unfold State.placePosition
  repeat' split
  all_goals rfl
@[simp] theorem State.placePosition_wrongPort (s : State) (n : LaneId) (position : Nat) :
    (s.placePosition n position).wrongPort = s.wrongPort := by
  unfold State.placePosition
  repeat' split
  all_goals rfl
@[simp] theorem State.placePosition_toSwitch (s : State) (n : LaneId) (position : Nat) :
    (s.placePosition n position).toSwitch = s.toSwitch := by
  unfold State.placePosition
  repeat' split
  all_goals rfl
@[simp] theorem State.placePosition_toLanes (s : State) (n : LaneId) (position : Nat) :
    (s.placePosition n position).toLanes = s.toLanes := by
  unfold State.placePosition
  repeat' split
  all_goals rfl
@[simp] theorem State.placePosition_toResponder (s : State) (n : LaneId) (position : Nat) :
    (s.placePosition n position).toResponder = s.toResponder := by
  unfold State.placePosition
  repeat' split
  all_goals rfl
@[simp] theorem State.placePosition_pending (s : State) (n : LaneId) (position : Nat) :
    (s.placePosition n position).pending = s.pending := by
  unfold State.placePosition
  repeat' split
  all_goals rfl
@[simp] theorem State.placePosition_dp_common (s : State) (n : LaneId) (position : Nat) :
    (s.placePosition n position).dp.common = s.dp.common := by
  unfold State.placePosition
  repeat' split
  all_goals rfl
@[simp] theorem State.placePosition_dp_sending (s : State) (n : LaneId) (position : Nat) :
    (s.placePosition n position).dp.sending = s.dp.sending := by
  unfold State.placePosition
  repeat' split
  all_goals rfl
@[simp] theorem State.placePosition_dp_forward (s : State) (n : LaneId) (position : Nat) :
    (s.placePosition n position).dp.forward = s.dp.forward := by
  unfold State.placePosition
  repeat' split
  all_goals rfl
@[simp] theorem State.placePosition_dp_urgent (s : State) (n : LaneId) (position : Nat) :
    (s.placePosition n position).dp.urgent = s.dp.urgent := by
  unfold State.placePosition
  repeat' split
  all_goals rfl
@[simp] theorem State.placePosition_dp_lastServed (s : State) (n : LaneId) (position : Nat) :
    (s.placePosition n position).dp.lastServed = s.dp.lastServed := by
  unfold State.placePosition
  repeat' split
  all_goals rfl
@[simp] theorem State.placePosition_dp_lastLane (s : State) (n : LaneId) (position : Nat) :
    (s.placePosition n position).dp.lastLane = s.dp.lastLane := by
  unfold State.placePosition
  repeat' split
  all_goals rfl
@[simp] theorem State.placePosition_lane (s : State) (n : LaneId) (position : Nat) (k : LaneId) :
    (s.placePosition n position).lane k = s.lane k := by
  simp only [State.lane, State.placePosition_lanes]
@[simp] theorem State.placePosition_queue (s : State) (n : LaneId) (position : Nat) (k : LaneId) :
    (s.placePosition n position).queue k = s.queue k := by
  simp only [State.queue, State.placePosition_orders]
@[simp] theorem State.placePosition_activeOrder (s : State) (n : LaneId) (position : Nat) (k : LaneId) :
    (s.placePosition n position).activeOrder k = s.activeOrder k := by
  simp only [State.activeOrder, State.queue, State.placePosition_orders]
@[simp] theorem State.placePosition_headOf (s : State) (n : LaneId) (position : Nat) (k : LaneId) :
    (s.placePosition n position).headOf k = s.headOf k := by
  simp only [State.headOf, State.placePosition_routes]
@[simp] theorem State.placePosition_isolationOf (s : State) (n : LaneId) (position : Nat) (k : LaneId) :
    (s.placePosition n position).isolationOf k = s.isolationOf k := by
  simp only [State.isolationOf, State.placePosition_routes]
@[simp] theorem State.placePosition_headLane (s : State) (n : LaneId) (position : Nat) (b' : Byte) :
    (s.placePosition n position).headLane b' = s.headLane b' := by
  simp only [State.headLane, State.placePosition_routes]
@[simp] theorem State.placePosition_transparent (s : State) (n : LaneId) (position : Nat) :
    (s.placePosition n position).transparent = s.transparent := by
  simp only [State.transparent, State.placePosition_straps]
@[simp] theorem State.placePosition_address (s : State) (n : LaneId) (position : Nat) :
    (s.placePosition n position).address = s.address := by
  simp only [State.address, State.placePosition_straps]
@[simp] theorem State.placePosition_routeAt (s : State) (n : LaneId) (position : Nat) (i' : Nat) :
    (s.placePosition n position).routeAt i' = s.routeAt i' := by
  simp only [State.routeAt, State.placePosition_routes]
@[simp] theorem State.placePosition_startTimer (s : State) (n : LaneId) (position : Nat) (i' : Nat) :
    (s.placePosition n position).startTimer i' = s.startTimer i' := by
  simp only [State.startTimer, State.placePosition_clock]
@[simp] theorem State.placePosition_canReserve (s : State) (n : LaneId) (position : Nat) :
    (s.placePosition n position).canReserve = s.canReserve := by
  simp only [State.canReserve, State.placePosition_records, State.placePosition_reservations]

/-! ### An urgent entry placed -/

@[simp] theorem State.placeUrgent_straps (s : State) (n : LaneId) (k' : UrgentKind) (dest : Byte) :
    (s.placeUrgent n k' dest).straps = s.straps := by
  unfold State.placeUrgent
  repeat' split
  all_goals rfl
@[simp] theorem State.placeUrgent_held (s : State) (n : LaneId) (k' : UrgentKind) (dest : Byte) :
    (s.placeUrgent n k' dest).held = s.held := by
  unfold State.placeUrgent
  repeat' split
  all_goals rfl
@[simp] theorem State.placeUrgent_clock (s : State) (n : LaneId) (k' : UrgentKind) (dest : Byte) :
    (s.placeUrgent n k' dest).clock = s.clock := by
  unfold State.placeUrgent
  repeat' split
  all_goals rfl
@[simp] theorem State.placeUrgent_routes (s : State) (n : LaneId) (k' : UrgentKind) (dest : Byte) :
    (s.placeUrgent n k' dest).routes = s.routes := by
  unfold State.placeUrgent
  repeat' split
  all_goals rfl
@[simp] theorem State.placeUrgent_lanes (s : State) (n : LaneId) (k' : UrgentKind) (dest : Byte) :
    (s.placeUrgent n k' dest).lanes = s.lanes := by
  unfold State.placeUrgent
  repeat' split
  all_goals rfl
@[simp] theorem State.placeUrgent_orders (s : State) (n : LaneId) (k' : UrgentKind) (dest : Byte) :
    (s.placeUrgent n k' dest).orders = s.orders := by
  unfold State.placeUrgent
  repeat' split
  all_goals rfl
@[simp] theorem State.placeUrgent_records (s : State) (n : LaneId) (k' : UrgentKind) (dest : Byte) :
    (s.placeUrgent n k' dest).records = s.records := by
  unfold State.placeUrgent
  repeat' split
  all_goals rfl
@[simp] theorem State.placeUrgent_reservations (s : State) (n : LaneId) (k' : UrgentKind) (dest : Byte) :
    (s.placeUrgent n k' dest).reservations = s.reservations := by
  unfold State.placeUrgent
  repeat' split
  all_goals rfl
@[simp] theorem State.placeUrgent_up (s : State) (n : LaneId) (k' : UrgentKind) (dest : Byte) :
    (s.placeUrgent n k' dest).up = s.up := by
  unfold State.placeUrgent
  repeat' split
  all_goals rfl
@[simp] theorem State.placeUrgent_controller (s : State) (n : LaneId) (k' : UrgentKind) (dest : Byte) :
    (s.placeUrgent n k' dest).controller = s.controller := by
  unfold State.placeUrgent
  repeat' split
  all_goals rfl
@[simp] theorem State.placeUrgent_restart (s : State) (n : LaneId) (k' : UrgentKind) (dest : Byte) :
    (s.placeUrgent n k' dest).restart = s.restart := by
  unfold State.placeUrgent
  repeat' split
  all_goals rfl
@[simp] theorem State.placeUrgent_unanswered (s : State) (n : LaneId) (k' : UrgentKind) (dest : Byte) :
    (s.placeUrgent n k' dest).unanswered = s.unanswered := by
  unfold State.placeUrgent
  repeat' split
  all_goals rfl
@[simp] theorem State.placeUrgent_wrongPort (s : State) (n : LaneId) (k' : UrgentKind) (dest : Byte) :
    (s.placeUrgent n k' dest).wrongPort = s.wrongPort := by
  unfold State.placeUrgent
  repeat' split
  all_goals rfl
@[simp] theorem State.placeUrgent_toSwitch (s : State) (n : LaneId) (k' : UrgentKind) (dest : Byte) :
    (s.placeUrgent n k' dest).toSwitch = s.toSwitch := by
  unfold State.placeUrgent
  repeat' split
  all_goals rfl
@[simp] theorem State.placeUrgent_toLanes (s : State) (n : LaneId) (k' : UrgentKind) (dest : Byte) :
    (s.placeUrgent n k' dest).toLanes = s.toLanes := by
  unfold State.placeUrgent
  repeat' split
  all_goals rfl
@[simp] theorem State.placeUrgent_toResponder (s : State) (n : LaneId) (k' : UrgentKind) (dest : Byte) :
    (s.placeUrgent n k' dest).toResponder = s.toResponder := by
  unfold State.placeUrgent
  repeat' split
  all_goals rfl
@[simp] theorem State.placeUrgent_pending (s : State) (n : LaneId) (k' : UrgentKind) (dest : Byte) :
    (s.placeUrgent n k' dest).pending = s.pending := by
  unfold State.placeUrgent
  repeat' split
  all_goals rfl
@[simp] theorem State.placeUrgent_dp_common (s : State) (n : LaneId) (k' : UrgentKind) (dest : Byte) :
    (s.placeUrgent n k' dest).dp.common = s.dp.common := by
  unfold State.placeUrgent
  repeat' split
  all_goals rfl
@[simp] theorem State.placeUrgent_dp_sending (s : State) (n : LaneId) (k' : UrgentKind) (dest : Byte) :
    (s.placeUrgent n k' dest).dp.sending = s.dp.sending := by
  unfold State.placeUrgent
  repeat' split
  all_goals rfl
@[simp] theorem State.placeUrgent_dp_forward (s : State) (n : LaneId) (k' : UrgentKind) (dest : Byte) :
    (s.placeUrgent n k' dest).dp.forward = s.dp.forward := by
  unfold State.placeUrgent
  repeat' split
  all_goals rfl
@[simp] theorem State.placeUrgent_dp_slots (s : State) (n : LaneId) (k' : UrgentKind) (dest : Byte) :
    (s.placeUrgent n k' dest).dp.slots = s.dp.slots := by
  unfold State.placeUrgent
  repeat' split
  all_goals rfl
@[simp] theorem State.placeUrgent_dp_lastServed (s : State) (n : LaneId) (k' : UrgentKind) (dest : Byte) :
    (s.placeUrgent n k' dest).dp.lastServed = s.dp.lastServed := by
  unfold State.placeUrgent
  repeat' split
  all_goals rfl
@[simp] theorem State.placeUrgent_dp_lastLane (s : State) (n : LaneId) (k' : UrgentKind) (dest : Byte) :
    (s.placeUrgent n k' dest).dp.lastLane = s.dp.lastLane := by
  unfold State.placeUrgent
  repeat' split
  all_goals rfl
@[simp] theorem State.placeUrgent_lane (s : State) (n : LaneId) (k' : UrgentKind) (dest : Byte) (k : LaneId) :
    (s.placeUrgent n k' dest).lane k = s.lane k := by
  simp only [State.lane, State.placeUrgent_lanes]
@[simp] theorem State.placeUrgent_queue (s : State) (n : LaneId) (k' : UrgentKind) (dest : Byte) (k : LaneId) :
    (s.placeUrgent n k' dest).queue k = s.queue k := by
  simp only [State.queue, State.placeUrgent_orders]
@[simp] theorem State.placeUrgent_activeOrder (s : State) (n : LaneId) (k' : UrgentKind) (dest : Byte) (k : LaneId) :
    (s.placeUrgent n k' dest).activeOrder k = s.activeOrder k := by
  simp only [State.activeOrder, State.queue, State.placeUrgent_orders]
@[simp] theorem State.placeUrgent_headOf (s : State) (n : LaneId) (k' : UrgentKind) (dest : Byte) (k : LaneId) :
    (s.placeUrgent n k' dest).headOf k = s.headOf k := by
  simp only [State.headOf, State.placeUrgent_routes]
@[simp] theorem State.placeUrgent_isolationOf (s : State) (n : LaneId) (k' : UrgentKind) (dest : Byte) (k : LaneId) :
    (s.placeUrgent n k' dest).isolationOf k = s.isolationOf k := by
  simp only [State.isolationOf, State.placeUrgent_routes]
@[simp] theorem State.placeUrgent_headLane (s : State) (n : LaneId) (k' : UrgentKind) (dest : Byte) (b' : Byte) :
    (s.placeUrgent n k' dest).headLane b' = s.headLane b' := by
  simp only [State.headLane, State.placeUrgent_routes]
@[simp] theorem State.placeUrgent_transparent (s : State) (n : LaneId) (k' : UrgentKind) (dest : Byte) :
    (s.placeUrgent n k' dest).transparent = s.transparent := by
  simp only [State.transparent, State.placeUrgent_straps]
@[simp] theorem State.placeUrgent_address (s : State) (n : LaneId) (k' : UrgentKind) (dest : Byte) :
    (s.placeUrgent n k' dest).address = s.address := by
  simp only [State.address, State.placeUrgent_straps]
@[simp] theorem State.placeUrgent_routeAt (s : State) (n : LaneId) (k' : UrgentKind) (dest : Byte) (i' : Nat) :
    (s.placeUrgent n k' dest).routeAt i' = s.routeAt i' := by
  simp only [State.routeAt, State.placeUrgent_routes]
@[simp] theorem State.placeUrgent_startTimer (s : State) (n : LaneId) (k' : UrgentKind) (dest : Byte) (i' : Nat) :
    (s.placeUrgent n k' dest).startTimer i' = s.startTimer i' := by
  simp only [State.startTimer, State.placeUrgent_clock]
@[simp] theorem State.placeUrgent_canReserve (s : State) (n : LaneId) (k' : UrgentKind) (dest : Byte) :
    (s.placeUrgent n k' dest).canReserve = s.canReserve := by
  simp only [State.canReserve, State.placeUrgent_records, State.placeUrgent_reservations]

/-! ### CLOSE for the head placed -/

@[simp] theorem State.placeHeadClose_straps (s : State) (n : LaneId) :
    (s.placeHeadClose n).straps = s.straps := by
  unfold State.placeHeadClose
  split <;> simp
@[simp] theorem State.placeHeadClose_held (s : State) (n : LaneId) :
    (s.placeHeadClose n).held = s.held := by
  unfold State.placeHeadClose
  split <;> simp
@[simp] theorem State.placeHeadClose_clock (s : State) (n : LaneId) :
    (s.placeHeadClose n).clock = s.clock := by
  unfold State.placeHeadClose
  split <;> simp
@[simp] theorem State.placeHeadClose_routes (s : State) (n : LaneId) :
    (s.placeHeadClose n).routes = s.routes := by
  unfold State.placeHeadClose
  split <;> simp
@[simp] theorem State.placeHeadClose_lanes (s : State) (n : LaneId) :
    (s.placeHeadClose n).lanes = s.lanes := by
  unfold State.placeHeadClose
  split <;> simp
@[simp] theorem State.placeHeadClose_orders (s : State) (n : LaneId) :
    (s.placeHeadClose n).orders = s.orders := by
  unfold State.placeHeadClose
  split <;> simp
@[simp] theorem State.placeHeadClose_records (s : State) (n : LaneId) :
    (s.placeHeadClose n).records = s.records := by
  unfold State.placeHeadClose
  split <;> simp
@[simp] theorem State.placeHeadClose_reservations (s : State) (n : LaneId) :
    (s.placeHeadClose n).reservations = s.reservations := by
  unfold State.placeHeadClose
  split <;> simp
@[simp] theorem State.placeHeadClose_up (s : State) (n : LaneId) :
    (s.placeHeadClose n).up = s.up := by
  unfold State.placeHeadClose
  split <;> simp
@[simp] theorem State.placeHeadClose_controller (s : State) (n : LaneId) :
    (s.placeHeadClose n).controller = s.controller := by
  unfold State.placeHeadClose
  split <;> simp
@[simp] theorem State.placeHeadClose_restart (s : State) (n : LaneId) :
    (s.placeHeadClose n).restart = s.restart := by
  unfold State.placeHeadClose
  split <;> simp
@[simp] theorem State.placeHeadClose_unanswered (s : State) (n : LaneId) :
    (s.placeHeadClose n).unanswered = s.unanswered := by
  unfold State.placeHeadClose
  split <;> simp
@[simp] theorem State.placeHeadClose_wrongPort (s : State) (n : LaneId) :
    (s.placeHeadClose n).wrongPort = s.wrongPort := by
  unfold State.placeHeadClose
  split <;> simp
@[simp] theorem State.placeHeadClose_toSwitch (s : State) (n : LaneId) :
    (s.placeHeadClose n).toSwitch = s.toSwitch := by
  unfold State.placeHeadClose
  split <;> simp
@[simp] theorem State.placeHeadClose_toLanes (s : State) (n : LaneId) :
    (s.placeHeadClose n).toLanes = s.toLanes := by
  unfold State.placeHeadClose
  split <;> simp
@[simp] theorem State.placeHeadClose_toResponder (s : State) (n : LaneId) :
    (s.placeHeadClose n).toResponder = s.toResponder := by
  unfold State.placeHeadClose
  split <;> simp
@[simp] theorem State.placeHeadClose_pending (s : State) (n : LaneId) :
    (s.placeHeadClose n).pending = s.pending := by
  unfold State.placeHeadClose
  split <;> simp
@[simp] theorem State.placeHeadClose_dp_common (s : State) (n : LaneId) :
    (s.placeHeadClose n).dp.common = s.dp.common := by
  unfold State.placeHeadClose
  split <;> simp
@[simp] theorem State.placeHeadClose_dp_sending (s : State) (n : LaneId) :
    (s.placeHeadClose n).dp.sending = s.dp.sending := by
  unfold State.placeHeadClose
  split <;> simp
@[simp] theorem State.placeHeadClose_dp_forward (s : State) (n : LaneId) :
    (s.placeHeadClose n).dp.forward = s.dp.forward := by
  unfold State.placeHeadClose
  split <;> simp
@[simp] theorem State.placeHeadClose_dp_slots (s : State) (n : LaneId) :
    (s.placeHeadClose n).dp.slots = s.dp.slots := by
  unfold State.placeHeadClose
  split <;> simp
@[simp] theorem State.placeHeadClose_dp_lastServed (s : State) (n : LaneId) :
    (s.placeHeadClose n).dp.lastServed = s.dp.lastServed := by
  unfold State.placeHeadClose
  split <;> simp
@[simp] theorem State.placeHeadClose_dp_lastLane (s : State) (n : LaneId) :
    (s.placeHeadClose n).dp.lastLane = s.dp.lastLane := by
  unfold State.placeHeadClose
  split <;> simp
@[simp] theorem State.placeHeadClose_lane (s : State) (n : LaneId) (k : LaneId) :
    (s.placeHeadClose n).lane k = s.lane k := by
  simp only [State.lane, State.placeHeadClose_lanes]
@[simp] theorem State.placeHeadClose_queue (s : State) (n : LaneId) (k : LaneId) :
    (s.placeHeadClose n).queue k = s.queue k := by
  simp only [State.queue, State.placeHeadClose_orders]
@[simp] theorem State.placeHeadClose_activeOrder (s : State) (n : LaneId) (k : LaneId) :
    (s.placeHeadClose n).activeOrder k = s.activeOrder k := by
  simp only [State.activeOrder, State.queue, State.placeHeadClose_orders]
@[simp] theorem State.placeHeadClose_headOf (s : State) (n : LaneId) (k : LaneId) :
    (s.placeHeadClose n).headOf k = s.headOf k := by
  simp only [State.headOf, State.placeHeadClose_routes]
@[simp] theorem State.placeHeadClose_isolationOf (s : State) (n : LaneId) (k : LaneId) :
    (s.placeHeadClose n).isolationOf k = s.isolationOf k := by
  simp only [State.isolationOf, State.placeHeadClose_routes]
@[simp] theorem State.placeHeadClose_headLane (s : State) (n : LaneId) (b' : Byte) :
    (s.placeHeadClose n).headLane b' = s.headLane b' := by
  simp only [State.headLane, State.placeHeadClose_routes]
@[simp] theorem State.placeHeadClose_transparent (s : State) (n : LaneId) :
    (s.placeHeadClose n).transparent = s.transparent := by
  simp only [State.transparent, State.placeHeadClose_straps]
@[simp] theorem State.placeHeadClose_address (s : State) (n : LaneId) :
    (s.placeHeadClose n).address = s.address := by
  simp only [State.address, State.placeHeadClose_straps]
@[simp] theorem State.placeHeadClose_routeAt (s : State) (n : LaneId) (i' : Nat) :
    (s.placeHeadClose n).routeAt i' = s.routeAt i' := by
  simp only [State.routeAt, State.placeHeadClose_routes]
@[simp] theorem State.placeHeadClose_startTimer (s : State) (n : LaneId) (i' : Nat) :
    (s.placeHeadClose n).startTimer i' = s.startTimer i' := by
  simp only [State.startTimer, State.placeHeadClose_clock]
@[simp] theorem State.placeHeadClose_canReserve (s : State) (n : LaneId) :
    (s.placeHeadClose n).canReserve = s.canReserve := by
  simp only [State.canReserve, State.placeHeadClose_records, State.placeHeadClose_reservations]

/-! ### CLOSE for the isolation station placed -/

@[simp] theorem State.placeIsolationClose_straps (s : State) (n : LaneId) :
    (s.placeIsolationClose n).straps = s.straps := by
  unfold State.placeIsolationClose
  split <;> simp
@[simp] theorem State.placeIsolationClose_held (s : State) (n : LaneId) :
    (s.placeIsolationClose n).held = s.held := by
  unfold State.placeIsolationClose
  split <;> simp
@[simp] theorem State.placeIsolationClose_clock (s : State) (n : LaneId) :
    (s.placeIsolationClose n).clock = s.clock := by
  unfold State.placeIsolationClose
  split <;> simp
@[simp] theorem State.placeIsolationClose_routes (s : State) (n : LaneId) :
    (s.placeIsolationClose n).routes = s.routes := by
  unfold State.placeIsolationClose
  split <;> simp
@[simp] theorem State.placeIsolationClose_lanes (s : State) (n : LaneId) :
    (s.placeIsolationClose n).lanes = s.lanes := by
  unfold State.placeIsolationClose
  split <;> simp
@[simp] theorem State.placeIsolationClose_orders (s : State) (n : LaneId) :
    (s.placeIsolationClose n).orders = s.orders := by
  unfold State.placeIsolationClose
  split <;> simp
@[simp] theorem State.placeIsolationClose_records (s : State) (n : LaneId) :
    (s.placeIsolationClose n).records = s.records := by
  unfold State.placeIsolationClose
  split <;> simp
@[simp] theorem State.placeIsolationClose_reservations (s : State) (n : LaneId) :
    (s.placeIsolationClose n).reservations = s.reservations := by
  unfold State.placeIsolationClose
  split <;> simp
@[simp] theorem State.placeIsolationClose_up (s : State) (n : LaneId) :
    (s.placeIsolationClose n).up = s.up := by
  unfold State.placeIsolationClose
  split <;> simp
@[simp] theorem State.placeIsolationClose_controller (s : State) (n : LaneId) :
    (s.placeIsolationClose n).controller = s.controller := by
  unfold State.placeIsolationClose
  split <;> simp
@[simp] theorem State.placeIsolationClose_restart (s : State) (n : LaneId) :
    (s.placeIsolationClose n).restart = s.restart := by
  unfold State.placeIsolationClose
  split <;> simp
@[simp] theorem State.placeIsolationClose_unanswered (s : State) (n : LaneId) :
    (s.placeIsolationClose n).unanswered = s.unanswered := by
  unfold State.placeIsolationClose
  split <;> simp
@[simp] theorem State.placeIsolationClose_wrongPort (s : State) (n : LaneId) :
    (s.placeIsolationClose n).wrongPort = s.wrongPort := by
  unfold State.placeIsolationClose
  split <;> simp
@[simp] theorem State.placeIsolationClose_toSwitch (s : State) (n : LaneId) :
    (s.placeIsolationClose n).toSwitch = s.toSwitch := by
  unfold State.placeIsolationClose
  split <;> simp
@[simp] theorem State.placeIsolationClose_toLanes (s : State) (n : LaneId) :
    (s.placeIsolationClose n).toLanes = s.toLanes := by
  unfold State.placeIsolationClose
  split <;> simp
@[simp] theorem State.placeIsolationClose_toResponder (s : State) (n : LaneId) :
    (s.placeIsolationClose n).toResponder = s.toResponder := by
  unfold State.placeIsolationClose
  split <;> simp
@[simp] theorem State.placeIsolationClose_pending (s : State) (n : LaneId) :
    (s.placeIsolationClose n).pending = s.pending := by
  unfold State.placeIsolationClose
  split <;> simp
@[simp] theorem State.placeIsolationClose_dp_common (s : State) (n : LaneId) :
    (s.placeIsolationClose n).dp.common = s.dp.common := by
  unfold State.placeIsolationClose
  split <;> simp
@[simp] theorem State.placeIsolationClose_dp_sending (s : State) (n : LaneId) :
    (s.placeIsolationClose n).dp.sending = s.dp.sending := by
  unfold State.placeIsolationClose
  split <;> simp
@[simp] theorem State.placeIsolationClose_dp_forward (s : State) (n : LaneId) :
    (s.placeIsolationClose n).dp.forward = s.dp.forward := by
  unfold State.placeIsolationClose
  split <;> simp
@[simp] theorem State.placeIsolationClose_dp_slots (s : State) (n : LaneId) :
    (s.placeIsolationClose n).dp.slots = s.dp.slots := by
  unfold State.placeIsolationClose
  split <;> simp
@[simp] theorem State.placeIsolationClose_dp_lastServed (s : State) (n : LaneId) :
    (s.placeIsolationClose n).dp.lastServed = s.dp.lastServed := by
  unfold State.placeIsolationClose
  split <;> simp
@[simp] theorem State.placeIsolationClose_dp_lastLane (s : State) (n : LaneId) :
    (s.placeIsolationClose n).dp.lastLane = s.dp.lastLane := by
  unfold State.placeIsolationClose
  split <;> simp
@[simp] theorem State.placeIsolationClose_lane (s : State) (n : LaneId) (k : LaneId) :
    (s.placeIsolationClose n).lane k = s.lane k := by
  simp only [State.lane, State.placeIsolationClose_lanes]
@[simp] theorem State.placeIsolationClose_queue (s : State) (n : LaneId) (k : LaneId) :
    (s.placeIsolationClose n).queue k = s.queue k := by
  simp only [State.queue, State.placeIsolationClose_orders]
@[simp] theorem State.placeIsolationClose_activeOrder (s : State) (n : LaneId) (k : LaneId) :
    (s.placeIsolationClose n).activeOrder k = s.activeOrder k := by
  simp only [State.activeOrder, State.queue, State.placeIsolationClose_orders]
@[simp] theorem State.placeIsolationClose_headOf (s : State) (n : LaneId) (k : LaneId) :
    (s.placeIsolationClose n).headOf k = s.headOf k := by
  simp only [State.headOf, State.placeIsolationClose_routes]
@[simp] theorem State.placeIsolationClose_isolationOf (s : State) (n : LaneId) (k : LaneId) :
    (s.placeIsolationClose n).isolationOf k = s.isolationOf k := by
  simp only [State.isolationOf, State.placeIsolationClose_routes]
@[simp] theorem State.placeIsolationClose_headLane (s : State) (n : LaneId) (b' : Byte) :
    (s.placeIsolationClose n).headLane b' = s.headLane b' := by
  simp only [State.headLane, State.placeIsolationClose_routes]
@[simp] theorem State.placeIsolationClose_transparent (s : State) (n : LaneId) :
    (s.placeIsolationClose n).transparent = s.transparent := by
  simp only [State.transparent, State.placeIsolationClose_straps]
@[simp] theorem State.placeIsolationClose_address (s : State) (n : LaneId) :
    (s.placeIsolationClose n).address = s.address := by
  simp only [State.address, State.placeIsolationClose_straps]
@[simp] theorem State.placeIsolationClose_routeAt (s : State) (n : LaneId) (i' : Nat) :
    (s.placeIsolationClose n).routeAt i' = s.routeAt i' := by
  simp only [State.routeAt, State.placeIsolationClose_routes]
@[simp] theorem State.placeIsolationClose_startTimer (s : State) (n : LaneId) (i' : Nat) :
    (s.placeIsolationClose n).startTimer i' = s.startTimer i' := by
  simp only [State.startTimer, State.placeIsolationClose_clock]
@[simp] theorem State.placeIsolationClose_canReserve (s : State) (n : LaneId) :
    (s.placeIsolationClose n).canReserve = s.canReserve := by
  simp only [State.canReserve, State.placeIsolationClose_records, State.placeIsolationClose_reservations]

/-! ### An order ended with a record -/

@[simp] theorem State.endWithRecord_straps (s : State) (n : LaneId) (outcome : OrderOutcome) :
    (s.endWithRecord n outcome).straps = s.straps := by
  unfold State.endWithRecord
  repeat' split
  all_goals rfl
@[simp] theorem State.endWithRecord_held (s : State) (n : LaneId) (outcome : OrderOutcome) :
    (s.endWithRecord n outcome).held = s.held := by
  unfold State.endWithRecord
  repeat' split
  all_goals rfl
@[simp] theorem State.endWithRecord_clock (s : State) (n : LaneId) (outcome : OrderOutcome) :
    (s.endWithRecord n outcome).clock = s.clock := by
  unfold State.endWithRecord
  repeat' split
  all_goals rfl
@[simp] theorem State.endWithRecord_routes (s : State) (n : LaneId) (outcome : OrderOutcome) :
    (s.endWithRecord n outcome).routes = s.routes := by
  unfold State.endWithRecord
  repeat' split
  all_goals rfl
@[simp] theorem State.endWithRecord_lanes (s : State) (n : LaneId) (outcome : OrderOutcome) :
    (s.endWithRecord n outcome).lanes = s.lanes := by
  unfold State.endWithRecord
  repeat' split
  all_goals rfl
@[simp] theorem State.endWithRecord_dp (s : State) (n : LaneId) (outcome : OrderOutcome) :
    (s.endWithRecord n outcome).dp = s.dp := by
  unfold State.endWithRecord
  repeat' split
  all_goals rfl
@[simp] theorem State.endWithRecord_controller (s : State) (n : LaneId) (outcome : OrderOutcome) :
    (s.endWithRecord n outcome).controller = s.controller := by
  unfold State.endWithRecord
  repeat' split
  all_goals rfl
@[simp] theorem State.endWithRecord_restart (s : State) (n : LaneId) (outcome : OrderOutcome) :
    (s.endWithRecord n outcome).restart = s.restart := by
  unfold State.endWithRecord
  repeat' split
  all_goals rfl
@[simp] theorem State.endWithRecord_unanswered (s : State) (n : LaneId) (outcome : OrderOutcome) :
    (s.endWithRecord n outcome).unanswered = s.unanswered := by
  unfold State.endWithRecord
  repeat' split
  all_goals rfl
@[simp] theorem State.endWithRecord_wrongPort (s : State) (n : LaneId) (outcome : OrderOutcome) :
    (s.endWithRecord n outcome).wrongPort = s.wrongPort := by
  unfold State.endWithRecord
  repeat' split
  all_goals rfl
@[simp] theorem State.endWithRecord_toSwitch (s : State) (n : LaneId) (outcome : OrderOutcome) :
    (s.endWithRecord n outcome).toSwitch = s.toSwitch := by
  unfold State.endWithRecord
  repeat' split
  all_goals rfl
@[simp] theorem State.endWithRecord_toLanes (s : State) (n : LaneId) (outcome : OrderOutcome) :
    (s.endWithRecord n outcome).toLanes = s.toLanes := by
  unfold State.endWithRecord
  repeat' split
  all_goals rfl
@[simp] theorem State.endWithRecord_toResponder (s : State) (n : LaneId) (outcome : OrderOutcome) :
    (s.endWithRecord n outcome).toResponder = s.toResponder := by
  unfold State.endWithRecord
  repeat' split
  all_goals rfl
@[simp] theorem State.endWithRecord_pending (s : State) (n : LaneId) (outcome : OrderOutcome) :
    (s.endWithRecord n outcome).pending = s.pending := by
  unfold State.endWithRecord
  repeat' split
  all_goals rfl
@[simp] theorem State.endWithRecord_up_common (s : State) (n : LaneId) (outcome : OrderOutcome) :
    (s.endWithRecord n outcome).up.common = s.up.common := by
  unfold State.endWithRecord
  repeat' split
  all_goals rfl
@[simp] theorem State.endWithRecord_up_sending (s : State) (n : LaneId) (outcome : OrderOutcome) :
    (s.endWithRecord n outcome).up.sending = s.up.sending := by
  unfold State.endWithRecord
  repeat' split
  all_goals rfl
@[simp] theorem State.endWithRecord_up_forward (s : State) (n : LaneId) (outcome : OrderOutcome) :
    (s.endWithRecord n outcome).up.forward = s.up.forward := by
  unfold State.endWithRecord
  repeat' split
  all_goals rfl
@[simp] theorem State.endWithRecord_up_replies (s : State) (n : LaneId) (outcome : OrderOutcome) :
    (s.endWithRecord n outcome).up.replies = s.up.replies := by
  unfold State.endWithRecord
  repeat' split
  all_goals rfl
@[simp] theorem State.endWithRecord_up_lastServed (s : State) (n : LaneId) (outcome : OrderOutcome) :
    (s.endWithRecord n outcome).up.lastServed = s.up.lastServed := by
  unfold State.endWithRecord
  repeat' split
  all_goals rfl
@[simp] theorem State.endWithRecord_up_lastNote (s : State) (n : LaneId) (outcome : OrderOutcome) :
    (s.endWithRecord n outcome).up.lastNote = s.up.lastNote := by
  unfold State.endWithRecord
  repeat' split
  all_goals rfl
@[simp] theorem State.endWithRecord_up_unitNote (s : State) (n : LaneId) (outcome : OrderOutcome) :
    (s.endWithRecord n outcome).up.unitNote = s.up.unitNote := by
  unfold State.endWithRecord
  repeat' split
  all_goals rfl
@[simp] theorem State.endWithRecord_lane (s : State) (n : LaneId) (outcome : OrderOutcome) (k : LaneId) :
    (s.endWithRecord n outcome).lane k = s.lane k := by
  simp only [State.lane, State.endWithRecord_lanes]
@[simp] theorem State.endWithRecord_headOf (s : State) (n : LaneId) (outcome : OrderOutcome) (k : LaneId) :
    (s.endWithRecord n outcome).headOf k = s.headOf k := by
  simp only [State.headOf, State.endWithRecord_routes]
@[simp] theorem State.endWithRecord_isolationOf (s : State) (n : LaneId) (outcome : OrderOutcome) (k : LaneId) :
    (s.endWithRecord n outcome).isolationOf k = s.isolationOf k := by
  simp only [State.isolationOf, State.endWithRecord_routes]
@[simp] theorem State.endWithRecord_headLane (s : State) (n : LaneId) (outcome : OrderOutcome) (b' : Byte) :
    (s.endWithRecord n outcome).headLane b' = s.headLane b' := by
  simp only [State.headLane, State.endWithRecord_routes]
@[simp] theorem State.endWithRecord_transparent (s : State) (n : LaneId) (outcome : OrderOutcome) :
    (s.endWithRecord n outcome).transparent = s.transparent := by
  simp only [State.transparent, State.endWithRecord_straps]
@[simp] theorem State.endWithRecord_address (s : State) (n : LaneId) (outcome : OrderOutcome) :
    (s.endWithRecord n outcome).address = s.address := by
  simp only [State.address, State.endWithRecord_straps]
@[simp] theorem State.endWithRecord_routeAt (s : State) (n : LaneId) (outcome : OrderOutcome) (i' : Nat) :
    (s.endWithRecord n outcome).routeAt i' = s.routeAt i' := by
  simp only [State.routeAt, State.endWithRecord_routes]
@[simp] theorem State.endWithRecord_startTimer (s : State) (n : LaneId) (outcome : OrderOutcome) (i' : Nat) :
    (s.endWithRecord n outcome).startTimer i' = s.startTimer i' := by
  simp only [State.startTimer, State.endWithRecord_clock]

/-! ### A reservation returned -/

@[simp] theorem State.returnReservation_straps (s : State) (n : LaneId) :
    (s.returnReservation n).straps = s.straps := by
  unfold State.returnReservation
  repeat' split
  all_goals first | rfl | simp
@[simp] theorem State.returnReservation_held (s : State) (n : LaneId) :
    (s.returnReservation n).held = s.held := by
  unfold State.returnReservation
  repeat' split
  all_goals first | rfl | simp
@[simp] theorem State.returnReservation_clock (s : State) (n : LaneId) :
    (s.returnReservation n).clock = s.clock := by
  unfold State.returnReservation
  repeat' split
  all_goals first | rfl | simp
@[simp] theorem State.returnReservation_routes (s : State) (n : LaneId) :
    (s.returnReservation n).routes = s.routes := by
  unfold State.returnReservation
  repeat' split
  all_goals first | rfl | simp
@[simp] theorem State.returnReservation_lanes (s : State) (n : LaneId) :
    (s.returnReservation n).lanes = s.lanes := by
  unfold State.returnReservation
  repeat' split
  all_goals first | rfl | simp
@[simp] theorem State.returnReservation_records (s : State) (n : LaneId) :
    (s.returnReservation n).records = s.records := by
  unfold State.returnReservation
  repeat' split
  all_goals first | rfl | simp
@[simp] theorem State.returnReservation_up (s : State) (n : LaneId) :
    (s.returnReservation n).up = s.up := by
  unfold State.returnReservation
  repeat' split
  all_goals first | rfl | simp
@[simp] theorem State.returnReservation_dp (s : State) (n : LaneId) :
    (s.returnReservation n).dp = s.dp := by
  unfold State.returnReservation
  repeat' split
  all_goals first | rfl | simp
@[simp] theorem State.returnReservation_controller (s : State) (n : LaneId) :
    (s.returnReservation n).controller = s.controller := by
  unfold State.returnReservation
  repeat' split
  all_goals first | rfl | simp
@[simp] theorem State.returnReservation_restart (s : State) (n : LaneId) :
    (s.returnReservation n).restart = s.restart := by
  unfold State.returnReservation
  repeat' split
  all_goals first | rfl | simp
@[simp] theorem State.returnReservation_unanswered (s : State) (n : LaneId) :
    (s.returnReservation n).unanswered = s.unanswered := by
  unfold State.returnReservation
  repeat' split
  all_goals first | rfl | simp
@[simp] theorem State.returnReservation_wrongPort (s : State) (n : LaneId) :
    (s.returnReservation n).wrongPort = s.wrongPort := by
  unfold State.returnReservation
  repeat' split
  all_goals first | rfl | simp
@[simp] theorem State.returnReservation_toSwitch (s : State) (n : LaneId) :
    (s.returnReservation n).toSwitch = s.toSwitch := by
  unfold State.returnReservation
  repeat' split
  all_goals first | rfl | simp
@[simp] theorem State.returnReservation_toLanes (s : State) (n : LaneId) :
    (s.returnReservation n).toLanes = s.toLanes := by
  unfold State.returnReservation
  repeat' split
  all_goals first | rfl | simp
@[simp] theorem State.returnReservation_toResponder (s : State) (n : LaneId) :
    (s.returnReservation n).toResponder = s.toResponder := by
  unfold State.returnReservation
  repeat' split
  all_goals first | rfl | simp
@[simp] theorem State.returnReservation_pending (s : State) (n : LaneId) :
    (s.returnReservation n).pending = s.pending := by
  unfold State.returnReservation
  repeat' split
  all_goals first | rfl | simp
@[simp] theorem State.returnReservation_lane (s : State) (n : LaneId) (k : LaneId) :
    (s.returnReservation n).lane k = s.lane k := by
  simp only [State.lane, State.returnReservation_lanes]
@[simp] theorem State.returnReservation_headOf (s : State) (n : LaneId) (k : LaneId) :
    (s.returnReservation n).headOf k = s.headOf k := by
  simp only [State.headOf, State.returnReservation_routes]
@[simp] theorem State.returnReservation_isolationOf (s : State) (n : LaneId) (k : LaneId) :
    (s.returnReservation n).isolationOf k = s.isolationOf k := by
  simp only [State.isolationOf, State.returnReservation_routes]
@[simp] theorem State.returnReservation_headLane (s : State) (n : LaneId) (b' : Byte) :
    (s.returnReservation n).headLane b' = s.headLane b' := by
  simp only [State.headLane, State.returnReservation_routes]
@[simp] theorem State.returnReservation_transparent (s : State) (n : LaneId) :
    (s.returnReservation n).transparent = s.transparent := by
  simp only [State.transparent, State.returnReservation_straps]
@[simp] theorem State.returnReservation_address (s : State) (n : LaneId) :
    (s.returnReservation n).address = s.address := by
  simp only [State.address, State.returnReservation_straps]
@[simp] theorem State.returnReservation_routeAt (s : State) (n : LaneId) (i' : Nat) :
    (s.returnReservation n).routeAt i' = s.routeAt i' := by
  simp only [State.routeAt, State.returnReservation_routes]
@[simp] theorem State.returnReservation_startTimer (s : State) (n : LaneId) (i' : Nat) :
    (s.returnReservation n).startTimer i' = s.startTimer i' := by
  simp only [State.startTimer, State.returnReservation_clock]

/-! ### What they do -/

/-- An active order stands at the head of its queue. -/
theorem State.queue_of_activeOrder {s : State} {n : LaneId} {o : Order} (h : s.activeOrder n = some o) :
    s.queue n = o :: (s.queue n).drop 1 ∧ o.active = true := by
  unfold State.activeOrder at h
  split at h
  · rename_i p rest hq
    split at h
    · cases h
      exact ⟨by rw [hq]; rfl, ‹_›⟩
    · cases h
  · cases h

/-- A queue whose head is active has it as its active order. -/
theorem State.activeOrder_of_queue {s : State} {n : LaneId} {o : Order} {rest : List Order} (h : s.queue n = o :: rest)
    (ha : o.active = true) : s.activeOrder n = some o := by
  unfold State.activeOrder
  rw [h]
  exact if_pos ha

/-- The queue of a lane after its head was changed. -/
theorem State.onHead_queue_self (s : State) (n : LaneId) (f : Order → Order) {o : Order} {rest : List Order}
    (h : s.queue n = o :: rest) : (s.onHead n f).queue n = f o :: rest := by
  unfold State.onHead
  rw [h]
  exact PerLane.get_set_self _ _ _

@[simp] theorem State.onHead_queue_of_ne (s : State) {n m : LaneId} (f : Order → Order) (h : m ≠ n) :
    (s.onHead n f).queue m = s.queue m := by
  unfold State.onHead
  split
  · exact PerLane.get_set_of_ne _ _ h
  · rfl

/-- The number of orders of a lane stays where its head is changed. -/
theorem State.onHead_queue_length (s : State) (n m : LaneId) (f : Order → Order) :
    ((s.onHead n f).queue m).length = (s.queue m).length := by
  by_cases h : m = n
  · subst h
    cases hq : s.queue m with
    | nil => simp [State.onHead, hq]
    | cons o rest => simp [s.onHead_queue_self m f hq]
  · simp [h]

/-- The active order of a lane after its head was changed, where the change keeps the active mark. -/
theorem State.onHead_activeOrder_self {s : State} {n : LaneId} {f : Order → Order} {o : Order}
    (h : s.activeOrder n = some o) (hf : (f o).active = true) : (s.onHead n f).activeOrder n = some (f o) :=
  State.activeOrder_of_queue (s.onHead_queue_self n f (State.queue_of_activeOrder h).1) hf

/-- A position command placed while no restart waits stands in its lane's slot. -/
theorem State.placePosition_slot_self {s : State} {n : LaneId} {a : Byte} (position : Nat) (hr : s.restart = none)
    (ha : s.headOf n = some a) :
    (s.placePosition n position).dp.slots.get n = some { dest := a, position } := by
  simp [State.placePosition, hr, ha]

@[simp] theorem State.placePosition_slot_of_ne (s : State) {n m : LaneId} (position : Nat) (h : m ≠ n) :
    (s.placePosition n position).dp.slots.get m = s.dp.slots.get m := by
  unfold State.placePosition
  repeat' split
  · rfl
  · exact PerLane.get_set_of_ne _ _ h
  · rfl

@[simp] theorem State.raiseNote_note_self (s : State) (n : LaneId) : (s.raiseNote n).up.laneNotes.get n = true :=
  PerLane.get_set_self _ _ _

@[simp] theorem State.enterState_note_self (s : State) (n : LaneId) (st : LaneState) :
    (s.enterState n st).up.laneNotes.get n = true := PerLane.get_set_self _ _ _

/-- An entry placed is in the urgent queue. -/
@[simp] theorem State.placeUrgent_holds_self (s : State) (n : LaneId) (k : UrgentKind) (a : Byte) :
    urgentHolds (s.placeUrgent n k a).dp.urgent n k = true := by
  unfold State.placeUrgent
  split
  · assumption
  · simp [urgentHolds]

/-- Placing an entry leaves the presence of every other lane and kind as it was. -/
theorem State.placeUrgent_holds_of_ne (s : State) {n m : LaneId} {k j : UrgentKind} (a : Byte) (h : ¬(m = n ∧ j = k)) :
    urgentHolds (s.placeUrgent n k a).dp.urgent m j = urgentHolds s.dp.urgent m j := by
  unfold State.placeUrgent
  split
  · rfl
  · have h' : ((n == m) && (k == j)) = false := by
      rw [Bool.and_eq_false_iff]
      by_cases hm : m = n
      · exact .inr (beq_false_of_ne fun hk => h ⟨hm, hk.symm⟩)
      · exact .inl (beq_false_of_ne fun hn => hm hn.symm)
    simp [urgentHolds, h']

/-- An entry placed is either there already or new and unsent. -/
theorem State.mem_placeUrgent {s : State} {n : LaneId} {k : UrgentKind} {a : Byte} {e : UrgentEntry}
    (h : e ∈ (s.placeUrgent n k a).dp.urgent) :
    e ∈ s.dp.urgent ∨ (e.lane = n ∧ e.kind = k ∧ e.sending = false) := by
  unfold State.placeUrgent at h
  split at h
  · exact .inl h
  · rcases List.mem_append.mp h with h | h
    · exact .inl h
    · rw [List.mem_singleton] at h
      subst h
      exact .inr ⟨rfl, rfl, rfl⟩

/-- CLOSE for a routed head is in the urgent queue once placed. -/
theorem State.placeHeadClose_holds {s : State} {n : LaneId} (h : s.headOf n ≠ none) :
    urgentHolds (s.placeHeadClose n).dp.urgent n .headClose = true := by
  unfold State.placeHeadClose
  split
  · simp
  · exact absurd ‹_› h

/-- CLOSE for a routed isolation station is in the urgent queue once placed. -/
theorem State.placeIsolationClose_holds {s : State} {n : LaneId} (h : s.isolationOf n ≠ none) :
    urgentHolds (s.placeIsolationClose n).dp.urgent n .isolationClose = true := by
  unfold State.placeIsolationClose
  split
  · simp
  · exact absurd ‹_› h

/-- CLOSE for a head leaves the other entries as they were. -/
theorem State.placeHeadClose_holds_of_ne (s : State) {n m : LaneId} {j : UrgentKind} (h : ¬(m = n ∧ j = .headClose)) :
    urgentHolds (s.placeHeadClose n).dp.urgent m j = urgentHolds s.dp.urgent m j := by
  unfold State.placeHeadClose
  split
  · exact s.placeUrgent_holds_of_ne _ h
  · rfl

/-- CLOSE for an isolation station leaves the other entries as they were. -/
theorem State.placeIsolationClose_holds_of_ne (s : State) {n m : LaneId} {j : UrgentKind}
    (h : ¬(m = n ∧ j = .isolationClose)) :
    urgentHolds (s.placeIsolationClose n).dp.urgent m j = urgentHolds s.dp.urgent m j := by
  unfold State.placeIsolationClose
  split
  · exact s.placeUrgent_holds_of_ne _ h
  · rfl

/-- A second CLOSE for a head places nothing. -/
theorem State.placeHeadClose_of_holds {s : State} {n : LaneId} (h : urgentHolds s.dp.urgent n .headClose = true) :
    s.placeHeadClose n = s := by
  unfold State.placeHeadClose
  split
  · unfold State.placeUrgent
    exact if_pos h
  · rfl

/-- The end of an active order with a record: the record at the tail, the order gone, its reservation consumed. -/
theorem State.endWithRecord_of_active {s : State} {n : LaneId} {o : Order} (h : s.activeOrder n = some o)
    (outcome : OrderOutcome) :
    s.endWithRecord n outcome =
      ({ s with records := s.records ++ [recordOf n (s.lane n) o outcome],
                reservations := if o.reserved then s.reservations - 1 else s.reservations }.putQueue n
        ((s.queue n).drop 1)).raiseNote n := by
  obtain ⟨hq, ha⟩ := State.queue_of_activeOrder h
  unfold State.endWithRecord
  rw [hq]
  simp only [ha, if_true, List.drop_one, List.tail_cons]

/-- A reservation returned: one fewer where the active order holds one. -/
theorem State.returnReservation_reservations (s : State) (n : LaneId) :
    (s.returnReservation n).reservations =
      s.reservations - (if (s.activeOrder n).any (·.reserved) then 1 else 0) := by
  unfold State.returnReservation
  cases s.activeOrder n with
  | none => simp
  | some o =>
    dsimp only
    cases hr : o.reserved <;> simp [hr]

@[simp] theorem State.returnReservation_queue_of_ne (s : State) {n m : LaneId} (h : m ≠ n) :
    (s.returnReservation n).queue m = s.queue m := by
  unfold State.returnReservation
  repeat' split
  · simp [h]; rfl
  · rfl
  · rfl

end Sys2Proof.Machine
end

