-- ==== Sys2Proof/Laws/Cycle.lean ====
section
/-! SUPPORT. What the acts of the lane cycle give: entry to FAULT, cut-off, entry to FILLING, to IDLE and the end of an
order, each said once. -/

namespace Sys2Proof.Machine

/-! ### A record where there is no active order -/

/-- Without an active order there is no record to write. -/
theorem State.endWithRecord_of_none {s : State} {n : LaneId} (h : s.activeOrder n = none) (outcome : OrderOutcome) :
    s.endWithRecord n outcome = s := by
  unfold State.activeOrder at h
  unfold State.endWithRecord
  split
  · rename_i o rest hq
    rw [hq] at h
    dsimp only at h
    split at h
    · cases h
    · exact if_neg ‹_›
  · rfl

/-! ### Entry to FAULT (R110) -/

/-- What stands after an entry to FAULT, whatever stood before: the causes, the stopped timers, the empty slot. -/
theorem State.enterFault_stands (s : State) (n : LaneId) (cause : FaultCause) :
    let t := s.enterFault n cause
    (t.lane n).seq.state = .fault ∧ (t.lane n).seq.faultCause = cause ∧ (t.lane n).seq.holdCause = .none
      ∧ (t.lane n).seq.openTimer = none ∧ (t.lane n).seq.closeTimer = none ∧ (t.lane n).seq.settleTimer = none
      ∧ (t.lane n).seq.fallTimer = none ∧ (t.lane n).seq.gangTimer = none
      ∧ t.dp = { s.dp with slots := s.dp.slots.set n none } ∧ t.up.laneNotes.get n = true := by
  unfold State.enterFault
  dsimp only
  have note : ∀ u : State, u.up.laneNotes.get n = true → (u.endWithRecord n .faulted).up.laneNotes.get n = true := by
    intro u hu
    cases ha : u.activeOrder n with
    | none => rw [State.endWithRecord_of_none ha]; exact hu
    | some o => rw [State.endWithRecord_of_active ha]; exact State.raiseNote_note_self _ _
  repeat' split
  all_goals
    refine ⟨?_, ?_, ?_, ?_, ?_, ?_, ?_, ?_, ?_, ?_⟩
    case refine_10 => exact note _ (State.enterState_note_self _ _ _)
    all_goals simp [Lane.onSeq, State.closeCompartment, State.withdrawPosition]

/-- What an entry to FAULT leaves of a lane engine besides its sequencer. -/
theorem State.enterFault_engine (s : State) (n : LaneId) (cause : FaultCause) :
    let l' := (s.enterFault n cause).lane n
    let l := s.lane n
    l' = { l with seq := l'.seq } ∧ l'.seq.mode = l.seq.mode ∧ l'.seq.silentMark = l.seq.silentMark
      ∧ l'.seq.silenceTimer = l.seq.silenceTimer := by
  unfold State.enterFault
  dsimp only
  repeat' split
  all_goals simp [Lane.onSeq, State.closeCompartment]

/-- An entry to FAULT with an active order: a FAULTED record with the result of the compartment under way, if any, and
the order gone. -/
theorem State.enterFault_ends {s : State} {n : LaneId} {o : Order} (cause : FaultCause) (h : s.activeOrder n = some o) :
    let t := s.enterFault n cause
    let results := o.results ++ ((s.lane n).faultResult o.targetKg).toList
    t.queue n = (s.queue n).drop 1
      ∧ t.reservations = (if o.reserved then s.reservations - 1 else s.reservations)
      ∧ t.records = s.records ++
          [{ tag := o.tag, lane := n, vehicle := o.vehicle, targetCount := o.targets.length, outcome := .faulted,
             faultCause := some cause, factorAtEnd := (s.lane n).flow.meterFactor, results }] := by
  obtain ⟨hq, ha⟩ := State.queue_of_activeOrder h
  unfold State.enterFault
  simp only [State.withdrawPosition_activeOrder, h, State.withdrawPosition_lane]
  cases hr : (s.lane n).faultResult o.targetKg with
  | none =>
    dsimp only
    rw [State.endWithRecord_of_active (o := o) (by simpa using h)]
    refine ⟨by simp, by simp, ?_⟩
    simp [recordOf, Lane.onSeq]
  | some r =>
    dsimp only
    have hact : (((State.closeCompartment (s.withdrawPosition n) n r).onLane n fun l => l.onSeq fun q =>
        { q with
          holdCause := .none, faultCause := cause, openTimer := none, closeTimer := none, settleTimer := none
          fallTimer := none, gangTimer := none }).enterState n .fault).activeOrder n
        = some { o with results := o.results ++ [r] } := by
      simp only [State.enterState_activeOrder, State.onLane_activeOrder, State.closeCompartment]
      exact State.onHead_activeOrder_self (by simpa using h) ha
    rw [State.endWithRecord_of_active hact]
    have hqq : (State.closeCompartment (s.withdrawPosition n) n r).queue n
        = { o with results := o.results ++ [r] } :: (s.queue n).drop 1 := by
      simp only [State.onLane_queue, State.closeCompartment]
      exact State.onHead_queue_self _ _ _ (by simpa using hq)
    refine ⟨by simp [hqq], by simp [State.closeCompartment], ?_⟩
    simp [recordOf, Lane.onSeq, State.closeCompartment]

/-! ### Cut-off (R102) -/

/-- The lane engine after a cut-off. -/
theorem State.cutOff_lane_self (s : State) (n : LaneId) (cause : CutCause) :
    let l := s.lane n
    (s.cutOff n cause).lane n = { l with seq := { l.seq with
      state := .cutoff
      openTimer := none
      closeTimer := some { start := s.clock, duration := l.params.confirmTime }
      closeRetries := 0
      cutoff := some { grams := l.integ.grams, regime := l.cls.active, cause } } } := by
  simp [State.cutOff, Lane.onSeq, State.startTimer]

/-- What a cut-off does beside the lane engine: CLOSE for the head, the emptied slot, the note. -/
theorem State.cutOff_rest (s : State) (n : LaneId) (cause : CutCause) :
    let t := s.cutOff n cause
    t.orders = s.orders ∧ t.records = s.records ∧ t.reservations = s.reservations
      ∧ t.dp = { s.dp with urgent := (s.placeHeadClose n).dp.urgent, slots := s.dp.slots.set n none }
      ∧ t.up = { s.up with laneNotes := s.up.laneNotes.set n true } := by
  refine ⟨by simp [State.cutOff], by simp [State.cutOff], by simp [State.cutOff], ?_, ?_⟩
  · simp only [State.cutOff, State.enterState_dp, State.onLane_dp, State.withdrawPosition]
    cases hd : (s.placeHeadClose n).dp
    have h1 := State.placeHeadClose_dp_common s n
    have h2 := State.placeHeadClose_dp_sending s n
    have h3 := State.placeHeadClose_dp_forward s n
    have h4 := State.placeHeadClose_dp_slots s n
    have h5 := State.placeHeadClose_dp_lastServed s n
    have h6 := State.placeHeadClose_dp_lastLane s n
    rw [hd] at h1 h2 h3 h4 h5 h6
    simp_all
  · simp [State.cutOff, State.enterState, State.raiseNote, State.onLane, State.putLane]

/-! ### Entry to FILLING (R97) -/

/-- An entry to FILLING where there is an active order: the lane engine, the order's compartment index, the command. -/
theorem State.enterFilling_of_active {s : State} {n : LaneId} {o : Order} (k : Nat) (h : s.activeOrder n = some o) :
    let t := s.enterFilling n k
    let opening := (s.lane n).opening o (o.targets.getD (k - 1) 0)
    t.lane n = (s.lane n).enterFilling s.clock opening.1 opening.2
      ∧ t.activeOrder n = some { o with compartment := k }
      ∧ t.queue n = { o with compartment := k } :: (s.queue n).drop 1
      ∧ t.records = s.records ∧ t.reservations = s.reservations ∧ t.dp.urgent = s.dp.urgent
      ∧ t.up.laneNotes.get n = true
      ∧ (s.restart = none → ∀ a, s.headOf n = some a →
          t.dp.slots.get n = some { dest := a, position := opening.1 }) := by
  obtain ⟨hq, ha⟩ := State.queue_of_activeOrder h
  unfold State.enterFilling
  rw [h]
  dsimp only
  refine ⟨by simp, ?_, ?_, by simp, by simp, by simp, ?_, fun hr a hh => ?_⟩
  · simp only [State.placePosition_activeOrder, State.raiseNote_activeOrder, State.onLane_activeOrder]
    exact State.onHead_activeOrder_self h ha
  · simp only [State.placePosition_queue, State.raiseNote_queue, State.onLane_queue]
    exact State.onHead_queue_self _ _ _ hq
  · simp
  · exact State.placePosition_slot_self _ (by simpa using hr) (by simpa using hh)

/-! ### The test of ARMED (R95, R96) -/

/-- A test of ARMED whose precondition fails only sets the hold cause. -/
theorem State.testArmed_of_fails {s : State} {n : LaneId} {o : Order} {cause : HoldCause} (h : s.activeOrder n = some o)
    (hp : (s.lane n).precondition = cause) (hc : cause ≠ .none) : s.testArmed n = s.setHold n cause := by
  unfold State.testArmed
  rw [h, hp]
  cases cause <;> first | rfl | exact absurd rfl hc

/-- A test of ARMED that finds no room in the record store. -/
theorem State.testArmed_of_full {s : State} {n : LaneId} {o : Order} (h : s.activeOrder n = some o)
    (hp : (s.lane n).precondition = .none) (hr : s.canReserve = false) : s.testArmed n = s.setHold n .recordsFull := by
  unfold State.testArmed
  rw [h, hp]
  simp [hr]

/-- A test of ARMED that passes, of an order without a gang. -/
theorem State.testArmed_of_alone {s : State} {n : LaneId} {o : Order} (h : s.activeOrder n = some o)
    (hp : (s.lane n).precondition = .none) (hr : s.canReserve = true) (hg : o.gangTag = 0) :
    s.testArmed n = ((s.setHold n .none).reserve n).enterFilling n 1 := by
  unfold State.testArmed
  rw [h, hp]
  simp [hr, hg]

/-- A test of ARMED that passes, of an order with a gang. -/
theorem State.testArmed_of_gang {s : State} {n : LaneId} {o : Order} (h : s.activeOrder n = some o)
    (hp : (s.lane n).precondition = .none) (hr : s.canReserve = true) (hg : o.gangTag ≠ 0) :
    s.testArmed n = ((s.setHold n .none).reserve n).enterGangWait n o := by
  unfold State.testArmed
  rw [h, hp]
  simp [hr, hg]

/-! ### Entry to IDLE (R93) and the end of an order (R74) -/

/-- A lane whose queue is empty takes nothing up. -/
theorem State.takeUp_of_empty {s : State} {n : LaneId} (h : s.queue n = []) : s.takeUp n = s := by
  unfold State.takeUp
  rw [h]

/-- A pending bank applied leaves the sequencer, the queue and the store as they were. -/
theorem State.applyPending_seq (s : State) (n : LaneId) :
    let t := s.applyPending n
    (t.lane n).seq = (s.lane n).seq ∧ t.orders = s.orders ∧ t.records = s.records ∧ t.reservations = s.reservations
      ∧ t.dp = s.dp ∧ t.routes = s.routes ∧ t.clock = s.clock ∧ t.restart = s.restart
      ∧ (t.lane n).recon = (s.lane n).recon ∧ (t.lane n).integ = (s.lane n).integ
      ∧ (t.lane n).flow.active = (if (s.lane n).flow.commitPending then (s.lane n).flow.staged else (s.lane n).flow.active)
      ∧ (t.lane n).flow.commitPending = false := by
  unfold State.applyPending
  split
  · rename_i h
    simp [State.applyBank, Lane.applyBank, h]
  · rename_i h
    simp [h]

/-- Entry to IDLE of a lane whose queue is empty. -/
theorem State.enterIdle_of_empty {s : State} {n : LaneId} (h : s.queue n = []) :
    let t := s.enterIdle n
    (t.lane n).seq = { (s.lane n).seq with state := .idle, holdCause := .none, faultCause := .none }
      ∧ t.orders = s.orders ∧ t.records = s.records ∧ t.reservations = s.reservations ∧ t.dp = s.dp
      ∧ (t.lane n).recon = (s.lane n).recon ∧ (t.lane n).integ = (s.lane n).integ := by
  unfold State.enterIdle
  dsimp only
  have hs := State.applyPending_seq
    ((s.onLane n fun l => l.onSeq fun q => { q with holdCause := .none, faultCause := .none }).enterState n .idle) n
  dsimp only at hs
  obtain ⟨h1, h2, h3, h4, h5, -, -, -, h9, h10, -, -⟩ := hs
  rw [State.takeUp_of_empty (by simp only [State.queue, h2]; simpa [State.queue] using h)]
  refine ⟨?_, ?_, ?_, ?_, ?_, ?_, ?_⟩
  · rw [h1]; simp [Lane.onSeq]
  · rw [h2]; simp
  · rw [h3]; simp
  · rw [h4]; simp
  · rw [h5]; simp
  · rw [h9]; simp [Lane.onSeq]
  · rw [h10]; simp [Lane.onSeq]

/-! ### What the waiting and filling acts keep -/

/-- `t` has the records of `s` and as many orders in every queue. -/
def State.SameStock (s t : State) : Prop := t.records = s.records ∧ ∀ m, (t.queue m).length = (s.queue m).length

theorem State.SameStock.refl (s : State) : s.SameStock s := ⟨rfl, fun _ => rfl⟩

theorem State.SameStock.trans {s t u : State} (h : s.SameStock t) (k : t.SameStock u) : s.SameStock u :=
  ⟨k.1.trans h.1, fun m => (k.2 m).trans (h.2 m)⟩

theorem State.sameStock_onHead (s : State) (n : LaneId) (f : Order → Order) : s.SameStock (s.onHead n f) :=
  ⟨by simp, fun m => s.onHead_queue_length n m f⟩

theorem State.sameStock_onLane (s : State) (n : LaneId) (f : Lane → Lane) : s.SameStock (s.onLane n f) :=
  ⟨by simp, fun m => by simp⟩

theorem State.sameStock_enterState (s : State) (n : LaneId) (st : LaneState) : s.SameStock (s.enterState n st) :=
  ⟨by simp, fun m => by simp⟩

theorem State.sameStock_enterFilling (s : State) (n : LaneId) (k : Nat) : s.SameStock (s.enterFilling n k) := by
  unfold State.enterFilling
  split
  · refine ⟨by simp, fun m => ?_⟩
    simp only [State.placePosition_queue, State.raiseNote_queue, State.onLane_queue]
    exact State.onHead_queue_length _ _ _ _
  · exact .refl s

theorem State.sameStock_releaseGang (members : List LaneId) (s : State) : s.SameStock (s.releaseGang members) := by
  unfold State.releaseGang
  induction members generalizing s with
  | nil => exact .refl s
  | cons n rest ih => exact (s.sameStock_enterFilling n 1).trans (ih _)

theorem State.sameStock_enterGangWait (s : State) (n : LaneId) (o : Order) : s.SameStock (s.enterGangWait n o) := by
  unfold State.enterGangWait
  dsimp only
  have h := (s.sameStock_onLane n fun l => l.onSeq fun q =>
    { q with gangTimer := some (s.startTimer (s.lane n).params.gangWait) }).trans (State.sameStock_enterState _ n .gangWait)
  split
  · exact h.trans (State.sameStock_releaseGang _ _)
  · exact h

theorem State.sameStock_reserve (s : State) (n : LaneId) : s.SameStock (s.reserve n) := by
  unfold State.reserve
  exact ⟨by simp, fun m => (State.onHead_queue_length _ _ _ _).trans rfl⟩

theorem State.sameStock_testArmed (s : State) (n : LaneId) : s.SameStock (s.testArmed n) := by
  unfold State.testArmed
  repeat' split
  · exact ((s.sameStock_onLane n _).trans (State.sameStock_reserve _ _)).trans (State.sameStock_enterFilling _ _ _)
  · exact ((s.sameStock_onLane n _).trans (State.sameStock_reserve _ _)).trans (State.sameStock_enterGangWait _ _ _)
  · exact s.sameStock_onLane n _
  · exact s.sameStock_onLane n _
  · exact .refl s

theorem State.sameStock_takeUp (s : State) (n : LaneId) : s.SameStock (s.takeUp n) := by
  unfold State.takeUp
  repeat' split
  · exact .refl s
  · exact ((s.sameStock_onHead n _).trans (State.sameStock_enterState _ _ _)).trans (State.sameStock_testArmed _ _)
  · exact .refl s

/-- Entry to IDLE keeps the records and the number of orders in every queue. -/
theorem State.sameStock_enterIdle (s : State) (n : LaneId) : s.SameStock (s.enterIdle n) := by
  unfold State.enterIdle
  refine State.SameStock.trans ?_ (State.sameStock_takeUp _ n)
  refine State.SameStock.trans (t := (s.onLane n fun l => l.onSeq fun q =>
    { q with holdCause := .none, faultCause := .none }).enterState n .idle) ?_ ?_
  · exact (s.sameStock_onLane n _).trans (State.sameStock_enterState _ _ _)
  · have h := State.applyPending_seq ((s.onLane n fun l => l.onSeq fun q =>
      { q with holdCause := .none, faultCause := .none }).enterState n .idle) n
    exact ⟨h.2.2.1, fun m => by simp only [State.queue, h.2.1]⟩

/-- Entry to IDLE makes the lane's note slot pending. -/
theorem State.enterIdle_note_self (s : State) (n : LaneId) : (s.enterIdle n).up.laneNotes.get n = true := by
  have placed : ∀ (t : State) (p : Nat), t.up.laneNotes.get n = true → (t.placePosition n p).up.laneNotes.get n = true :=
    fun t p h => by simpa using h
  have fill : ∀ (t : State) (m : LaneId) (k : Nat), t.up.laneNotes.get n = true →
      (t.enterFilling m k).up.laneNotes.get n = true := by
    intro t m k h
    unfold State.enterFilling
    split
    · simp only [State.placePosition_up, State.raiseNote, State.onLane_up, State.onHead_up, PerLane.get_set]
      split
      · rfl
      · exact h
    · exact h
  have release : ∀ (members : List LaneId) (t : State), t.up.laneNotes.get n = true →
      (t.releaseGang members).up.laneNotes.get n = true := by
    intro members
    unfold State.releaseGang
    induction members with
    | nil => exact fun t h => h
    | cons m rest ih => exact fun t h => ih _ (fill t m 1 h)
  have test : ∀ t : State, t.up.laneNotes.get n = true → (t.testArmed n).up.laneNotes.get n = true := by
    intro t h
    unfold State.testArmed
    repeat' split
    · exact fill _ _ _ (by simpa [State.reserve, State.setHold] using h)
    · unfold State.enterGangWait
      dsimp only
      split
      · exact release _ _ (State.enterState_note_self _ _ _)
      · exact State.enterState_note_self _ _ _
    · simpa [State.setHold] using h
    · simpa [State.setHold] using h
    · exact h
  have take : ∀ t : State, t.up.laneNotes.get n = true → (t.takeUp n).up.laneNotes.get n = true := by
    intro t h
    unfold State.takeUp
    repeat' split
    · exact h
    · exact test _ (State.enterState_note_self _ _ _)
    · exact h
  unfold State.enterIdle
  refine take _ ?_
  unfold State.applyPending State.applyBank
  split
  · unfold State.raiseNoteIf
    split
    · exact State.raiseNote_note_self _ _
    · exact State.enterState_note_self _ _ _
  · exact State.enterState_note_self _ _ _

/-- The end of an active order: the record at the tail, one order fewer, the note pending; with no further order the lane
stands in IDLE. A COMPLETE order leaves its reconciliation entry. -/
theorem State.endOrder_ends {s : State} {n : LaneId} {o : Order} (outcome : OrderOutcome) (h : s.activeOrder n = some o) :
    let t := s.endOrder n outcome
    t.records = s.records ++ [recordOf n (s.lane n) o outcome]
      ∧ (t.queue n).length + 1 = (s.queue n).length ∧ t.up.laneNotes.get n = true
      ∧ ((s.queue n).length = 1 →
          (t.lane n).seq = { (s.lane n).seq with state := .idle, holdCause := .none, faultCause := .none }
            ∧ t.reservations = if o.reserved then s.reservations - 1 else s.reservations) := by
  obtain ⟨hq, ha⟩ := State.queue_of_activeOrder h
  have hlen : ((s.queue n).drop 1).length + 1 = (s.queue n).length := by
    conv => rhs; rw [hq]
    simp
  unfold State.endOrder
  rw [h]
  dsimp only
  have main : ∀ u : State, u.activeOrder n = some o → u.queue n = s.queue n → u.records = s.records →
      u.reservations = s.reservations → (u.lane n).seq = (s.lane n).seq →
      recordOf n (u.lane n) o outcome = recordOf n (s.lane n) o outcome →
      let t := (u.endWithRecord n outcome).enterIdle n
      t.records = s.records ++ [recordOf n (s.lane n) o outcome]
        ∧ (t.queue n).length + 1 = (s.queue n).length ∧ t.up.laneNotes.get n = true
        ∧ ((s.queue n).length = 1 →
            (t.lane n).seq = { (s.lane n).seq with state := .idle, holdCause := .none, faultCause := .none }
              ∧ t.reservations = if o.reserved then s.reservations - 1 else s.reservations) := by
    intro u h1 h2 h3 h4 h5 h6
    have hu : (u.endWithRecord n outcome).queue n = (s.queue n).drop 1 := by
      rw [State.endWithRecord_of_active h1]
      simp [h2]
    have stock := State.sameStock_enterIdle (u.endWithRecord n outcome) n
    refine ⟨?_, ?_, State.enterIdle_note_self _ _, fun hl => ?_⟩
    · rw [stock.1, State.endWithRecord_of_active h1]
      simp [h3, h6]
    · rw [stock.2, hu]
      exact hlen
    · have hempty : (u.endWithRecord n outcome).queue n = [] := by
        rw [hu]
        exact List.eq_nil_of_length_eq_zero (by omega)
      obtain ⟨i1, -, -, i4, -, -, -⟩ := State.enterIdle_of_empty hempty
      refine ⟨?_, ?_⟩
      · rw [i1]
        simp [h5]
      · rw [i4, State.endWithRecord_of_active h1]
        simp [h4]
  split
  · refine main _ ?_ ?_ ?_ ?_ ?_ ?_ <;> simp [recordOf, h]
  · exact main s h rfl rfl rfl rfl rfl

end Sys2Proof.Machine
end

