-- ==== Sys2Proof/Laws/Parts.lean ====
section
/-! SUPPORT. What the operations that are not about one lane leave alone: forward queues, ports, transmitters, the end of a
restart. One lemma per field. -/

namespace Sys2Proof.Machine

/-! ### A frame placed upward -/

@[simp] theorem State.forwardUp_straps (s : State) (f : Frame) :
    (s.forwardUp f).straps = s.straps := by
  unfold State.forwardUp
  split <;> rfl
@[simp] theorem State.forwardUp_held (s : State) (f : Frame) :
    (s.forwardUp f).held = s.held := by
  unfold State.forwardUp
  split <;> rfl
@[simp] theorem State.forwardUp_clock (s : State) (f : Frame) :
    (s.forwardUp f).clock = s.clock := by
  unfold State.forwardUp
  split <;> rfl
@[simp] theorem State.forwardUp_routes (s : State) (f : Frame) :
    (s.forwardUp f).routes = s.routes := by
  unfold State.forwardUp
  split <;> rfl
@[simp] theorem State.forwardUp_lanes (s : State) (f : Frame) :
    (s.forwardUp f).lanes = s.lanes := by
  unfold State.forwardUp
  split <;> rfl
@[simp] theorem State.forwardUp_orders (s : State) (f : Frame) :
    (s.forwardUp f).orders = s.orders := by
  unfold State.forwardUp
  split <;> rfl
@[simp] theorem State.forwardUp_records (s : State) (f : Frame) :
    (s.forwardUp f).records = s.records := by
  unfold State.forwardUp
  split <;> rfl
@[simp] theorem State.forwardUp_reservations (s : State) (f : Frame) :
    (s.forwardUp f).reservations = s.reservations := by
  unfold State.forwardUp
  split <;> rfl
@[simp] theorem State.forwardUp_dp (s : State) (f : Frame) :
    (s.forwardUp f).dp = s.dp := by
  unfold State.forwardUp
  split <;> rfl
@[simp] theorem State.forwardUp_controller (s : State) (f : Frame) :
    (s.forwardUp f).controller = s.controller := by
  unfold State.forwardUp
  split <;> rfl
@[simp] theorem State.forwardUp_restart (s : State) (f : Frame) :
    (s.forwardUp f).restart = s.restart := by
  unfold State.forwardUp
  split <;> rfl
@[simp] theorem State.forwardUp_unanswered (s : State) (f : Frame) :
    (s.forwardUp f).unanswered = s.unanswered := by
  unfold State.forwardUp
  split <;> rfl
@[simp] theorem State.forwardUp_wrongPort (s : State) (f : Frame) :
    (s.forwardUp f).wrongPort = s.wrongPort := by
  unfold State.forwardUp
  split <;> rfl
@[simp] theorem State.forwardUp_toSwitch (s : State) (f : Frame) :
    (s.forwardUp f).toSwitch = s.toSwitch := by
  unfold State.forwardUp
  split <;> rfl
@[simp] theorem State.forwardUp_toLanes (s : State) (f : Frame) :
    (s.forwardUp f).toLanes = s.toLanes := by
  unfold State.forwardUp
  split <;> rfl
@[simp] theorem State.forwardUp_toResponder (s : State) (f : Frame) :
    (s.forwardUp f).toResponder = s.toResponder := by
  unfold State.forwardUp
  split <;> rfl
@[simp] theorem State.forwardUp_pending (s : State) (f : Frame) :
    (s.forwardUp f).pending = s.pending := by
  unfold State.forwardUp
  split <;> rfl
@[simp] theorem State.forwardUp_up_sending (s : State) (f : Frame) :
    (s.forwardUp f).up.sending = s.up.sending := by
  unfold State.forwardUp
  split <;> rfl
@[simp] theorem State.forwardUp_up_replies (s : State) (f : Frame) :
    (s.forwardUp f).up.replies = s.up.replies := by
  unfold State.forwardUp
  split <;> rfl
@[simp] theorem State.forwardUp_up_lastServed (s : State) (f : Frame) :
    (s.forwardUp f).up.lastServed = s.up.lastServed := by
  unfold State.forwardUp
  split <;> rfl
@[simp] theorem State.forwardUp_up_lastNote (s : State) (f : Frame) :
    (s.forwardUp f).up.lastNote = s.up.lastNote := by
  unfold State.forwardUp
  split <;> rfl
@[simp] theorem State.forwardUp_up_laneNotes (s : State) (f : Frame) :
    (s.forwardUp f).up.laneNotes = s.up.laneNotes := by
  unfold State.forwardUp
  split <;> rfl
@[simp] theorem State.forwardUp_up_unitNote (s : State) (f : Frame) :
    (s.forwardUp f).up.unitNote = s.up.unitNote := by
  unfold State.forwardUp
  split <;> rfl
@[simp] theorem State.forwardUp_lane (s : State) (f : Frame) (k : LaneId) :
    (s.forwardUp f).lane k = s.lane k := by
  simp only [State.lane, State.forwardUp_lanes]
@[simp] theorem State.forwardUp_queue (s : State) (f : Frame) (k : LaneId) :
    (s.forwardUp f).queue k = s.queue k := by
  simp only [State.queue, State.forwardUp_orders]
@[simp] theorem State.forwardUp_activeOrder (s : State) (f : Frame) (k : LaneId) :
    (s.forwardUp f).activeOrder k = s.activeOrder k := by
  simp only [State.activeOrder, State.queue, State.forwardUp_orders]
@[simp] theorem State.forwardUp_headOf (s : State) (f : Frame) (k : LaneId) :
    (s.forwardUp f).headOf k = s.headOf k := by
  simp only [State.headOf, State.forwardUp_routes]
@[simp] theorem State.forwardUp_isolationOf (s : State) (f : Frame) (k : LaneId) :
    (s.forwardUp f).isolationOf k = s.isolationOf k := by
  simp only [State.isolationOf, State.forwardUp_routes]
@[simp] theorem State.forwardUp_headLane (s : State) (f : Frame) (b' : Byte) :
    (s.forwardUp f).headLane b' = s.headLane b' := by
  simp only [State.headLane, State.forwardUp_routes]
@[simp] theorem State.forwardUp_transparent (s : State) (f : Frame) :
    (s.forwardUp f).transparent = s.transparent := by
  simp only [State.transparent, State.forwardUp_straps]
@[simp] theorem State.forwardUp_address (s : State) (f : Frame) :
    (s.forwardUp f).address = s.address := by
  simp only [State.address, State.forwardUp_straps]
@[simp] theorem State.forwardUp_routeAt (s : State) (f : Frame) (i' : Nat) :
    (s.forwardUp f).routeAt i' = s.routeAt i' := by
  simp only [State.routeAt, State.forwardUp_routes]

/-! ### A frame placed downward -/

@[simp] theorem State.forwardDown_straps (s : State) (f : Frame) :
    (s.forwardDown f).straps = s.straps := by
  unfold State.forwardDown
  split <;> rfl
@[simp] theorem State.forwardDown_held (s : State) (f : Frame) :
    (s.forwardDown f).held = s.held := by
  unfold State.forwardDown
  split <;> rfl
@[simp] theorem State.forwardDown_clock (s : State) (f : Frame) :
    (s.forwardDown f).clock = s.clock := by
  unfold State.forwardDown
  split <;> rfl
@[simp] theorem State.forwardDown_routes (s : State) (f : Frame) :
    (s.forwardDown f).routes = s.routes := by
  unfold State.forwardDown
  split <;> rfl
@[simp] theorem State.forwardDown_lanes (s : State) (f : Frame) :
    (s.forwardDown f).lanes = s.lanes := by
  unfold State.forwardDown
  split <;> rfl
@[simp] theorem State.forwardDown_orders (s : State) (f : Frame) :
    (s.forwardDown f).orders = s.orders := by
  unfold State.forwardDown
  split <;> rfl
@[simp] theorem State.forwardDown_records (s : State) (f : Frame) :
    (s.forwardDown f).records = s.records := by
  unfold State.forwardDown
  split <;> rfl
@[simp] theorem State.forwardDown_reservations (s : State) (f : Frame) :
    (s.forwardDown f).reservations = s.reservations := by
  unfold State.forwardDown
  split <;> rfl
@[simp] theorem State.forwardDown_up (s : State) (f : Frame) :
    (s.forwardDown f).up = s.up := by
  unfold State.forwardDown
  split <;> rfl
@[simp] theorem State.forwardDown_controller (s : State) (f : Frame) :
    (s.forwardDown f).controller = s.controller := by
  unfold State.forwardDown
  split <;> rfl
@[simp] theorem State.forwardDown_restart (s : State) (f : Frame) :
    (s.forwardDown f).restart = s.restart := by
  unfold State.forwardDown
  split <;> rfl
@[simp] theorem State.forwardDown_unanswered (s : State) (f : Frame) :
    (s.forwardDown f).unanswered = s.unanswered := by
  unfold State.forwardDown
  split <;> rfl
@[simp] theorem State.forwardDown_wrongPort (s : State) (f : Frame) :
    (s.forwardDown f).wrongPort = s.wrongPort := by
  unfold State.forwardDown
  split <;> rfl
@[simp] theorem State.forwardDown_toSwitch (s : State) (f : Frame) :
    (s.forwardDown f).toSwitch = s.toSwitch := by
  unfold State.forwardDown
  split <;> rfl
@[simp] theorem State.forwardDown_toLanes (s : State) (f : Frame) :
    (s.forwardDown f).toLanes = s.toLanes := by
  unfold State.forwardDown
  split <;> rfl
@[simp] theorem State.forwardDown_toResponder (s : State) (f : Frame) :
    (s.forwardDown f).toResponder = s.toResponder := by
  unfold State.forwardDown
  split <;> rfl
@[simp] theorem State.forwardDown_pending (s : State) (f : Frame) :
    (s.forwardDown f).pending = s.pending := by
  unfold State.forwardDown
  split <;> rfl
@[simp] theorem State.forwardDown_dp_sending (s : State) (f : Frame) :
    (s.forwardDown f).dp.sending = s.dp.sending := by
  unfold State.forwardDown
  split <;> rfl
@[simp] theorem State.forwardDown_dp_urgent (s : State) (f : Frame) :
    (s.forwardDown f).dp.urgent = s.dp.urgent := by
  unfold State.forwardDown
  split <;> rfl
@[simp] theorem State.forwardDown_dp_slots (s : State) (f : Frame) :
    (s.forwardDown f).dp.slots = s.dp.slots := by
  unfold State.forwardDown
  split <;> rfl
@[simp] theorem State.forwardDown_dp_lastServed (s : State) (f : Frame) :
    (s.forwardDown f).dp.lastServed = s.dp.lastServed := by
  unfold State.forwardDown
  split <;> rfl
@[simp] theorem State.forwardDown_dp_lastLane (s : State) (f : Frame) :
    (s.forwardDown f).dp.lastLane = s.dp.lastLane := by
  unfold State.forwardDown
  split <;> rfl
@[simp] theorem State.forwardDown_lane (s : State) (f : Frame) (k : LaneId) :
    (s.forwardDown f).lane k = s.lane k := by
  simp only [State.lane, State.forwardDown_lanes]
@[simp] theorem State.forwardDown_queue (s : State) (f : Frame) (k : LaneId) :
    (s.forwardDown f).queue k = s.queue k := by
  simp only [State.queue, State.forwardDown_orders]
@[simp] theorem State.forwardDown_activeOrder (s : State) (f : Frame) (k : LaneId) :
    (s.forwardDown f).activeOrder k = s.activeOrder k := by
  simp only [State.activeOrder, State.queue, State.forwardDown_orders]
@[simp] theorem State.forwardDown_headOf (s : State) (f : Frame) (k : LaneId) :
    (s.forwardDown f).headOf k = s.headOf k := by
  simp only [State.headOf, State.forwardDown_routes]
@[simp] theorem State.forwardDown_isolationOf (s : State) (f : Frame) (k : LaneId) :
    (s.forwardDown f).isolationOf k = s.isolationOf k := by
  simp only [State.isolationOf, State.forwardDown_routes]
@[simp] theorem State.forwardDown_headLane (s : State) (f : Frame) (b' : Byte) :
    (s.forwardDown f).headLane b' = s.headLane b' := by
  simp only [State.headLane, State.forwardDown_routes]
@[simp] theorem State.forwardDown_transparent (s : State) (f : Frame) :
    (s.forwardDown f).transparent = s.transparent := by
  simp only [State.transparent, State.forwardDown_straps]
@[simp] theorem State.forwardDown_address (s : State) (f : Frame) :
    (s.forwardDown f).address = s.address := by
  simp only [State.address, State.forwardDown_straps]
@[simp] theorem State.forwardDown_routeAt (s : State) (f : Frame) (i' : Nat) :
    (s.forwardDown f).routeAt i' = s.routeAt i' := by
  simp only [State.routeAt, State.forwardDown_routes]

/-! ### The receiving side of a port replaced -/

@[simp] theorem State.putPort_straps (s : State) (p : Port) (c : PortCommon) :
    (s.putPort p c).straps = s.straps := by cases p <;> rfl
@[simp] theorem State.putPort_held (s : State) (p : Port) (c : PortCommon) :
    (s.putPort p c).held = s.held := by cases p <;> rfl
@[simp] theorem State.putPort_clock (s : State) (p : Port) (c : PortCommon) :
    (s.putPort p c).clock = s.clock := by cases p <;> rfl
@[simp] theorem State.putPort_routes (s : State) (p : Port) (c : PortCommon) :
    (s.putPort p c).routes = s.routes := by cases p <;> rfl
@[simp] theorem State.putPort_lanes (s : State) (p : Port) (c : PortCommon) :
    (s.putPort p c).lanes = s.lanes := by cases p <;> rfl
@[simp] theorem State.putPort_orders (s : State) (p : Port) (c : PortCommon) :
    (s.putPort p c).orders = s.orders := by cases p <;> rfl
@[simp] theorem State.putPort_records (s : State) (p : Port) (c : PortCommon) :
    (s.putPort p c).records = s.records := by cases p <;> rfl
@[simp] theorem State.putPort_reservations (s : State) (p : Port) (c : PortCommon) :
    (s.putPort p c).reservations = s.reservations := by cases p <;> rfl
@[simp] theorem State.putPort_controller (s : State) (p : Port) (c : PortCommon) :
    (s.putPort p c).controller = s.controller := by cases p <;> rfl
@[simp] theorem State.putPort_restart (s : State) (p : Port) (c : PortCommon) :
    (s.putPort p c).restart = s.restart := by cases p <;> rfl
@[simp] theorem State.putPort_unanswered (s : State) (p : Port) (c : PortCommon) :
    (s.putPort p c).unanswered = s.unanswered := by cases p <;> rfl
@[simp] theorem State.putPort_wrongPort (s : State) (p : Port) (c : PortCommon) :
    (s.putPort p c).wrongPort = s.wrongPort := by cases p <;> rfl
@[simp] theorem State.putPort_toSwitch (s : State) (p : Port) (c : PortCommon) :
    (s.putPort p c).toSwitch = s.toSwitch := by cases p <;> rfl
@[simp] theorem State.putPort_toLanes (s : State) (p : Port) (c : PortCommon) :
    (s.putPort p c).toLanes = s.toLanes := by cases p <;> rfl
@[simp] theorem State.putPort_toResponder (s : State) (p : Port) (c : PortCommon) :
    (s.putPort p c).toResponder = s.toResponder := by cases p <;> rfl
@[simp] theorem State.putPort_pending (s : State) (p : Port) (c : PortCommon) :
    (s.putPort p c).pending = s.pending := by cases p <;> rfl
@[simp] theorem State.putPort_up_sending (s : State) (p : Port) (c : PortCommon) :
    (s.putPort p c).up.sending = s.up.sending := by cases p <;> rfl
@[simp] theorem State.putPort_up_forward (s : State) (p : Port) (c : PortCommon) :
    (s.putPort p c).up.forward = s.up.forward := by cases p <;> rfl
@[simp] theorem State.putPort_up_replies (s : State) (p : Port) (c : PortCommon) :
    (s.putPort p c).up.replies = s.up.replies := by cases p <;> rfl
@[simp] theorem State.putPort_up_lastServed (s : State) (p : Port) (c : PortCommon) :
    (s.putPort p c).up.lastServed = s.up.lastServed := by cases p <;> rfl
@[simp] theorem State.putPort_up_lastNote (s : State) (p : Port) (c : PortCommon) :
    (s.putPort p c).up.lastNote = s.up.lastNote := by cases p <;> rfl
@[simp] theorem State.putPort_up_laneNotes (s : State) (p : Port) (c : PortCommon) :
    (s.putPort p c).up.laneNotes = s.up.laneNotes := by cases p <;> rfl
@[simp] theorem State.putPort_up_unitNote (s : State) (p : Port) (c : PortCommon) :
    (s.putPort p c).up.unitNote = s.up.unitNote := by cases p <;> rfl
@[simp] theorem State.putPort_dp_sending (s : State) (p : Port) (c : PortCommon) :
    (s.putPort p c).dp.sending = s.dp.sending := by cases p <;> rfl
@[simp] theorem State.putPort_dp_forward (s : State) (p : Port) (c : PortCommon) :
    (s.putPort p c).dp.forward = s.dp.forward := by cases p <;> rfl
@[simp] theorem State.putPort_dp_urgent (s : State) (p : Port) (c : PortCommon) :
    (s.putPort p c).dp.urgent = s.dp.urgent := by cases p <;> rfl
@[simp] theorem State.putPort_dp_slots (s : State) (p : Port) (c : PortCommon) :
    (s.putPort p c).dp.slots = s.dp.slots := by cases p <;> rfl
@[simp] theorem State.putPort_dp_lastServed (s : State) (p : Port) (c : PortCommon) :
    (s.putPort p c).dp.lastServed = s.dp.lastServed := by cases p <;> rfl
@[simp] theorem State.putPort_dp_lastLane (s : State) (p : Port) (c : PortCommon) :
    (s.putPort p c).dp.lastLane = s.dp.lastLane := by cases p <;> rfl
@[simp] theorem State.putPort_lane (s : State) (p : Port) (c : PortCommon) (k : LaneId) :
    (s.putPort p c).lane k = s.lane k := by
  simp only [State.lane, State.putPort_lanes]
@[simp] theorem State.putPort_queue (s : State) (p : Port) (c : PortCommon) (k : LaneId) :
    (s.putPort p c).queue k = s.queue k := by
  simp only [State.queue, State.putPort_orders]
@[simp] theorem State.putPort_activeOrder (s : State) (p : Port) (c : PortCommon) (k : LaneId) :
    (s.putPort p c).activeOrder k = s.activeOrder k := by
  simp only [State.activeOrder, State.queue, State.putPort_orders]
@[simp] theorem State.putPort_headOf (s : State) (p : Port) (c : PortCommon) (k : LaneId) :
    (s.putPort p c).headOf k = s.headOf k := by
  simp only [State.headOf, State.putPort_routes]
@[simp] theorem State.putPort_isolationOf (s : State) (p : Port) (c : PortCommon) (k : LaneId) :
    (s.putPort p c).isolationOf k = s.isolationOf k := by
  simp only [State.isolationOf, State.putPort_routes]
@[simp] theorem State.putPort_headLane (s : State) (p : Port) (c : PortCommon) (b' : Byte) :
    (s.putPort p c).headLane b' = s.headLane b' := by
  simp only [State.headLane, State.putPort_routes]
@[simp] theorem State.putPort_transparent (s : State) (p : Port) (c : PortCommon) :
    (s.putPort p c).transparent = s.transparent := by
  simp only [State.transparent, State.putPort_straps]
@[simp] theorem State.putPort_address (s : State) (p : Port) (c : PortCommon) :
    (s.putPort p c).address = s.address := by
  simp only [State.address, State.putPort_straps]
@[simp] theorem State.putPort_routeAt (s : State) (p : Port) (c : PortCommon) (i' : Nat) :
    (s.putPort p c).routeAt i' = s.routeAt i' := by
  simp only [State.routeAt, State.putPort_routes]
@[simp] theorem State.putPort_port_self (s : State) (p : Port) (c : PortCommon) : (s.putPort p c).port p = c := by
  cases p <;> rfl
theorem State.putPort_port_of_ne (s : State) {p q : Port} (c : PortCommon) (h : q ≠ p) : (s.putPort p c).port q = s.port q := by
  cases p <;> cases q <;> first | rfl | exact absurd rfl h

/-! ### A start delimiter -/

@[simp] theorem State.startDelimiter_straps (s : State) (p : Port) :
    (s.startDelimiter p).straps = s.straps := by
  unfold State.startDelimiter
  cases p <;> dsimp only <;> split <;> rfl
@[simp] theorem State.startDelimiter_held (s : State) (p : Port) :
    (s.startDelimiter p).held = s.held := by
  unfold State.startDelimiter
  cases p <;> dsimp only <;> split <;> rfl
@[simp] theorem State.startDelimiter_clock (s : State) (p : Port) :
    (s.startDelimiter p).clock = s.clock := by
  unfold State.startDelimiter
  cases p <;> dsimp only <;> split <;> rfl
@[simp] theorem State.startDelimiter_routes (s : State) (p : Port) :
    (s.startDelimiter p).routes = s.routes := by
  unfold State.startDelimiter
  cases p <;> dsimp only <;> split <;> rfl
@[simp] theorem State.startDelimiter_lanes (s : State) (p : Port) :
    (s.startDelimiter p).lanes = s.lanes := by
  unfold State.startDelimiter
  cases p <;> dsimp only <;> split <;> rfl
@[simp] theorem State.startDelimiter_orders (s : State) (p : Port) :
    (s.startDelimiter p).orders = s.orders := by
  unfold State.startDelimiter
  cases p <;> dsimp only <;> split <;> rfl
@[simp] theorem State.startDelimiter_records (s : State) (p : Port) :
    (s.startDelimiter p).records = s.records := by
  unfold State.startDelimiter
  cases p <;> dsimp only <;> split <;> rfl
@[simp] theorem State.startDelimiter_reservations (s : State) (p : Port) :
    (s.startDelimiter p).reservations = s.reservations := by
  unfold State.startDelimiter
  cases p <;> dsimp only <;> split <;> rfl
@[simp] theorem State.startDelimiter_controller (s : State) (p : Port) :
    (s.startDelimiter p).controller = s.controller := by
  unfold State.startDelimiter
  cases p <;> dsimp only <;> split <;> rfl
@[simp] theorem State.startDelimiter_restart (s : State) (p : Port) :
    (s.startDelimiter p).restart = s.restart := by
  unfold State.startDelimiter
  cases p <;> dsimp only <;> split <;> rfl
@[simp] theorem State.startDelimiter_unanswered (s : State) (p : Port) :
    (s.startDelimiter p).unanswered = s.unanswered := by
  unfold State.startDelimiter
  cases p <;> dsimp only <;> split <;> rfl
@[simp] theorem State.startDelimiter_wrongPort (s : State) (p : Port) :
    (s.startDelimiter p).wrongPort = s.wrongPort := by
  unfold State.startDelimiter
  cases p <;> dsimp only <;> split <;> rfl
@[simp] theorem State.startDelimiter_toSwitch (s : State) (p : Port) :
    (s.startDelimiter p).toSwitch = s.toSwitch := by
  unfold State.startDelimiter
  cases p <;> dsimp only <;> split <;> rfl
@[simp] theorem State.startDelimiter_toLanes (s : State) (p : Port) :
    (s.startDelimiter p).toLanes = s.toLanes := by
  unfold State.startDelimiter
  cases p <;> dsimp only <;> split <;> rfl
@[simp] theorem State.startDelimiter_toResponder (s : State) (p : Port) :
    (s.startDelimiter p).toResponder = s.toResponder := by
  unfold State.startDelimiter
  cases p <;> dsimp only <;> split <;> rfl
@[simp] theorem State.startDelimiter_pending (s : State) (p : Port) :
    (s.startDelimiter p).pending = s.pending := by
  unfold State.startDelimiter
  cases p <;> dsimp only <;> split <;> rfl
@[simp] theorem State.startDelimiter_up_sending (s : State) (p : Port) :
    (s.startDelimiter p).up.sending = s.up.sending := by
  unfold State.startDelimiter
  cases p <;> dsimp only <;> split <;> rfl
@[simp] theorem State.startDelimiter_up_forward (s : State) (p : Port) :
    (s.startDelimiter p).up.forward = s.up.forward := by
  unfold State.startDelimiter
  cases p <;> dsimp only <;> split <;> rfl
@[simp] theorem State.startDelimiter_up_replies (s : State) (p : Port) :
    (s.startDelimiter p).up.replies = s.up.replies := by
  unfold State.startDelimiter
  cases p <;> dsimp only <;> split <;> rfl
@[simp] theorem State.startDelimiter_up_lastServed (s : State) (p : Port) :
    (s.startDelimiter p).up.lastServed = s.up.lastServed := by
  unfold State.startDelimiter
  cases p <;> dsimp only <;> split <;> rfl
@[simp] theorem State.startDelimiter_up_lastNote (s : State) (p : Port) :
    (s.startDelimiter p).up.lastNote = s.up.lastNote := by
  unfold State.startDelimiter
  cases p <;> dsimp only <;> split <;> rfl
@[simp] theorem State.startDelimiter_up_laneNotes (s : State) (p : Port) :
    (s.startDelimiter p).up.laneNotes = s.up.laneNotes := by
  unfold State.startDelimiter
  cases p <;> dsimp only <;> split <;> rfl
@[simp] theorem State.startDelimiter_dp_sending (s : State) (p : Port) :
    (s.startDelimiter p).dp.sending = s.dp.sending := by
  unfold State.startDelimiter
  cases p <;> dsimp only <;> split <;> rfl
@[simp] theorem State.startDelimiter_dp_forward (s : State) (p : Port) :
    (s.startDelimiter p).dp.forward = s.dp.forward := by
  unfold State.startDelimiter
  cases p <;> dsimp only <;> split <;> rfl
@[simp] theorem State.startDelimiter_dp_urgent (s : State) (p : Port) :
    (s.startDelimiter p).dp.urgent = s.dp.urgent := by
  unfold State.startDelimiter
  cases p <;> dsimp only <;> split <;> rfl
@[simp] theorem State.startDelimiter_dp_slots (s : State) (p : Port) :
    (s.startDelimiter p).dp.slots = s.dp.slots := by
  unfold State.startDelimiter
  cases p <;> dsimp only <;> split <;> rfl
@[simp] theorem State.startDelimiter_dp_lastServed (s : State) (p : Port) :
    (s.startDelimiter p).dp.lastServed = s.dp.lastServed := by
  unfold State.startDelimiter
  cases p <;> dsimp only <;> split <;> rfl
@[simp] theorem State.startDelimiter_dp_lastLane (s : State) (p : Port) :
    (s.startDelimiter p).dp.lastLane = s.dp.lastLane := by
  unfold State.startDelimiter
  cases p <;> dsimp only <;> split <;> rfl
@[simp] theorem State.startDelimiter_lane (s : State) (p : Port) (k : LaneId) :
    (s.startDelimiter p).lane k = s.lane k := by
  simp only [State.lane, State.startDelimiter_lanes]
@[simp] theorem State.startDelimiter_queue (s : State) (p : Port) (k : LaneId) :
    (s.startDelimiter p).queue k = s.queue k := by
  simp only [State.queue, State.startDelimiter_orders]
@[simp] theorem State.startDelimiter_activeOrder (s : State) (p : Port) (k : LaneId) :
    (s.startDelimiter p).activeOrder k = s.activeOrder k := by
  simp only [State.activeOrder, State.queue, State.startDelimiter_orders]
@[simp] theorem State.startDelimiter_headOf (s : State) (p : Port) (k : LaneId) :
    (s.startDelimiter p).headOf k = s.headOf k := by
  simp only [State.headOf, State.startDelimiter_routes]
@[simp] theorem State.startDelimiter_isolationOf (s : State) (p : Port) (k : LaneId) :
    (s.startDelimiter p).isolationOf k = s.isolationOf k := by
  simp only [State.isolationOf, State.startDelimiter_routes]
@[simp] theorem State.startDelimiter_headLane (s : State) (p : Port) (b' : Byte) :
    (s.startDelimiter p).headLane b' = s.headLane b' := by
  simp only [State.headLane, State.startDelimiter_routes]
@[simp] theorem State.startDelimiter_transparent (s : State) (p : Port) :
    (s.startDelimiter p).transparent = s.transparent := by
  simp only [State.transparent, State.startDelimiter_straps]
@[simp] theorem State.startDelimiter_address (s : State) (p : Port) :
    (s.startDelimiter p).address = s.address := by
  simp only [State.address, State.startDelimiter_straps]
@[simp] theorem State.startDelimiter_routeAt (s : State) (p : Port) (i' : Nat) :
    (s.startDelimiter p).routeAt i' = s.routeAt i' := by
  simp only [State.routeAt, State.startDelimiter_routes]

/-! ### A line break -/

@[simp] theorem State.lineBreak_straps (s : State) (p : Port) :
    (s.lineBreak p).straps = s.straps := by
  unfold State.lineBreak
  cases p <;> split <;> rfl
@[simp] theorem State.lineBreak_held (s : State) (p : Port) :
    (s.lineBreak p).held = s.held := by
  unfold State.lineBreak
  cases p <;> split <;> rfl
@[simp] theorem State.lineBreak_clock (s : State) (p : Port) :
    (s.lineBreak p).clock = s.clock := by
  unfold State.lineBreak
  cases p <;> split <;> rfl
@[simp] theorem State.lineBreak_routes (s : State) (p : Port) :
    (s.lineBreak p).routes = s.routes := by
  unfold State.lineBreak
  cases p <;> split <;> rfl
@[simp] theorem State.lineBreak_lanes (s : State) (p : Port) :
    (s.lineBreak p).lanes = s.lanes := by
  unfold State.lineBreak
  cases p <;> split <;> rfl
@[simp] theorem State.lineBreak_orders (s : State) (p : Port) :
    (s.lineBreak p).orders = s.orders := by
  unfold State.lineBreak
  cases p <;> split <;> rfl
@[simp] theorem State.lineBreak_records (s : State) (p : Port) :
    (s.lineBreak p).records = s.records := by
  unfold State.lineBreak
  cases p <;> split <;> rfl
@[simp] theorem State.lineBreak_reservations (s : State) (p : Port) :
    (s.lineBreak p).reservations = s.reservations := by
  unfold State.lineBreak
  cases p <;> split <;> rfl
@[simp] theorem State.lineBreak_controller (s : State) (p : Port) :
    (s.lineBreak p).controller = s.controller := by
  unfold State.lineBreak
  cases p <;> split <;> rfl
@[simp] theorem State.lineBreak_restart (s : State) (p : Port) :
    (s.lineBreak p).restart = s.restart := by
  unfold State.lineBreak
  cases p <;> split <;> rfl
@[simp] theorem State.lineBreak_unanswered (s : State) (p : Port) :
    (s.lineBreak p).unanswered = s.unanswered := by
  unfold State.lineBreak
  cases p <;> split <;> rfl
@[simp] theorem State.lineBreak_wrongPort (s : State) (p : Port) :
    (s.lineBreak p).wrongPort = s.wrongPort := by
  unfold State.lineBreak
  cases p <;> split <;> rfl
@[simp] theorem State.lineBreak_toSwitch (s : State) (p : Port) :
    (s.lineBreak p).toSwitch = s.toSwitch := by
  unfold State.lineBreak
  cases p <;> split <;> rfl
@[simp] theorem State.lineBreak_toLanes (s : State) (p : Port) :
    (s.lineBreak p).toLanes = s.toLanes := by
  unfold State.lineBreak
  cases p <;> split <;> rfl
@[simp] theorem State.lineBreak_toResponder (s : State) (p : Port) :
    (s.lineBreak p).toResponder = s.toResponder := by
  unfold State.lineBreak
  cases p <;> split <;> rfl
@[simp] theorem State.lineBreak_pending (s : State) (p : Port) :
    (s.lineBreak p).pending = s.pending := by
  unfold State.lineBreak
  cases p <;> split <;> rfl
@[simp] theorem State.lineBreak_up_sending (s : State) (p : Port) :
    (s.lineBreak p).up.sending = s.up.sending := by
  unfold State.lineBreak
  cases p <;> split <;> rfl
@[simp] theorem State.lineBreak_up_forward (s : State) (p : Port) :
    (s.lineBreak p).up.forward = s.up.forward := by
  unfold State.lineBreak
  cases p <;> split <;> rfl
@[simp] theorem State.lineBreak_up_replies (s : State) (p : Port) :
    (s.lineBreak p).up.replies = s.up.replies := by
  unfold State.lineBreak
  cases p <;> split <;> rfl
@[simp] theorem State.lineBreak_up_lastServed (s : State) (p : Port) :
    (s.lineBreak p).up.lastServed = s.up.lastServed := by
  unfold State.lineBreak
  cases p <;> split <;> rfl
@[simp] theorem State.lineBreak_up_lastNote (s : State) (p : Port) :
    (s.lineBreak p).up.lastNote = s.up.lastNote := by
  unfold State.lineBreak
  cases p <;> split <;> rfl
@[simp] theorem State.lineBreak_up_laneNotes (s : State) (p : Port) :
    (s.lineBreak p).up.laneNotes = s.up.laneNotes := by
  unfold State.lineBreak
  cases p <;> split <;> rfl
@[simp] theorem State.lineBreak_up_unitNote (s : State) (p : Port) :
    (s.lineBreak p).up.unitNote = s.up.unitNote := by
  unfold State.lineBreak
  cases p <;> split <;> rfl
@[simp] theorem State.lineBreak_dp_sending (s : State) (p : Port) :
    (s.lineBreak p).dp.sending = s.dp.sending := by
  unfold State.lineBreak
  cases p <;> split <;> rfl
@[simp] theorem State.lineBreak_dp_forward (s : State) (p : Port) :
    (s.lineBreak p).dp.forward = s.dp.forward := by
  unfold State.lineBreak
  cases p <;> split <;> rfl
@[simp] theorem State.lineBreak_dp_urgent (s : State) (p : Port) :
    (s.lineBreak p).dp.urgent = s.dp.urgent := by
  unfold State.lineBreak
  cases p <;> split <;> rfl
@[simp] theorem State.lineBreak_dp_slots (s : State) (p : Port) :
    (s.lineBreak p).dp.slots = s.dp.slots := by
  unfold State.lineBreak
  cases p <;> split <;> rfl
@[simp] theorem State.lineBreak_dp_lastServed (s : State) (p : Port) :
    (s.lineBreak p).dp.lastServed = s.dp.lastServed := by
  unfold State.lineBreak
  cases p <;> split <;> rfl
@[simp] theorem State.lineBreak_dp_lastLane (s : State) (p : Port) :
    (s.lineBreak p).dp.lastLane = s.dp.lastLane := by
  unfold State.lineBreak
  cases p <;> split <;> rfl
@[simp] theorem State.lineBreak_lane (s : State) (p : Port) (k : LaneId) :
    (s.lineBreak p).lane k = s.lane k := by
  simp only [State.lane, State.lineBreak_lanes]
@[simp] theorem State.lineBreak_queue (s : State) (p : Port) (k : LaneId) :
    (s.lineBreak p).queue k = s.queue k := by
  simp only [State.queue, State.lineBreak_orders]
@[simp] theorem State.lineBreak_activeOrder (s : State) (p : Port) (k : LaneId) :
    (s.lineBreak p).activeOrder k = s.activeOrder k := by
  simp only [State.activeOrder, State.queue, State.lineBreak_orders]
@[simp] theorem State.lineBreak_headOf (s : State) (p : Port) (k : LaneId) :
    (s.lineBreak p).headOf k = s.headOf k := by
  simp only [State.headOf, State.lineBreak_routes]
@[simp] theorem State.lineBreak_isolationOf (s : State) (p : Port) (k : LaneId) :
    (s.lineBreak p).isolationOf k = s.isolationOf k := by
  simp only [State.isolationOf, State.lineBreak_routes]
@[simp] theorem State.lineBreak_headLane (s : State) (p : Port) (b' : Byte) :
    (s.lineBreak p).headLane b' = s.headLane b' := by
  simp only [State.headLane, State.lineBreak_routes]
@[simp] theorem State.lineBreak_transparent (s : State) (p : Port) :
    (s.lineBreak p).transparent = s.transparent := by
  simp only [State.transparent, State.lineBreak_straps]
@[simp] theorem State.lineBreak_address (s : State) (p : Port) :
    (s.lineBreak p).address = s.address := by
  simp only [State.address, State.lineBreak_straps]
@[simp] theorem State.lineBreak_routeAt (s : State) (p : Port) (i' : Nat) :
    (s.lineBreak p).routeAt i' = s.routeAt i' := by
  simp only [State.routeAt, State.lineBreak_routes]

/-! ### A quiet line -/

@[simp] theorem State.linkDown_straps (s : State) (p : Port) :
    (s.linkDown p).straps = s.straps := by
  unfold State.linkDown
  cases p <;> split <;> rfl
@[simp] theorem State.linkDown_held (s : State) (p : Port) :
    (s.linkDown p).held = s.held := by
  unfold State.linkDown
  cases p <;> split <;> rfl
@[simp] theorem State.linkDown_clock (s : State) (p : Port) :
    (s.linkDown p).clock = s.clock := by
  unfold State.linkDown
  cases p <;> split <;> rfl
@[simp] theorem State.linkDown_routes (s : State) (p : Port) :
    (s.linkDown p).routes = s.routes := by
  unfold State.linkDown
  cases p <;> split <;> rfl
@[simp] theorem State.linkDown_lanes (s : State) (p : Port) :
    (s.linkDown p).lanes = s.lanes := by
  unfold State.linkDown
  cases p <;> split <;> rfl
@[simp] theorem State.linkDown_orders (s : State) (p : Port) :
    (s.linkDown p).orders = s.orders := by
  unfold State.linkDown
  cases p <;> split <;> rfl
@[simp] theorem State.linkDown_records (s : State) (p : Port) :
    (s.linkDown p).records = s.records := by
  unfold State.linkDown
  cases p <;> split <;> rfl
@[simp] theorem State.linkDown_reservations (s : State) (p : Port) :
    (s.linkDown p).reservations = s.reservations := by
  unfold State.linkDown
  cases p <;> split <;> rfl
@[simp] theorem State.linkDown_controller (s : State) (p : Port) :
    (s.linkDown p).controller = s.controller := by
  unfold State.linkDown
  cases p <;> split <;> rfl
@[simp] theorem State.linkDown_restart (s : State) (p : Port) :
    (s.linkDown p).restart = s.restart := by
  unfold State.linkDown
  cases p <;> split <;> rfl
@[simp] theorem State.linkDown_unanswered (s : State) (p : Port) :
    (s.linkDown p).unanswered = s.unanswered := by
  unfold State.linkDown
  cases p <;> split <;> rfl
@[simp] theorem State.linkDown_wrongPort (s : State) (p : Port) :
    (s.linkDown p).wrongPort = s.wrongPort := by
  unfold State.linkDown
  cases p <;> split <;> rfl
@[simp] theorem State.linkDown_toSwitch (s : State) (p : Port) :
    (s.linkDown p).toSwitch = s.toSwitch := by
  unfold State.linkDown
  cases p <;> split <;> rfl
@[simp] theorem State.linkDown_toLanes (s : State) (p : Port) :
    (s.linkDown p).toLanes = s.toLanes := by
  unfold State.linkDown
  cases p <;> split <;> rfl
@[simp] theorem State.linkDown_toResponder (s : State) (p : Port) :
    (s.linkDown p).toResponder = s.toResponder := by
  unfold State.linkDown
  cases p <;> split <;> rfl
@[simp] theorem State.linkDown_pending (s : State) (p : Port) :
    (s.linkDown p).pending = s.pending := by
  unfold State.linkDown
  cases p <;> split <;> rfl
@[simp] theorem State.linkDown_up_sending (s : State) (p : Port) :
    (s.linkDown p).up.sending = s.up.sending := by
  unfold State.linkDown
  cases p <;> split <;> rfl
@[simp] theorem State.linkDown_up_forward (s : State) (p : Port) :
    (s.linkDown p).up.forward = s.up.forward := by
  unfold State.linkDown
  cases p <;> split <;> rfl
@[simp] theorem State.linkDown_up_replies (s : State) (p : Port) :
    (s.linkDown p).up.replies = s.up.replies := by
  unfold State.linkDown
  cases p <;> split <;> rfl
@[simp] theorem State.linkDown_up_lastServed (s : State) (p : Port) :
    (s.linkDown p).up.lastServed = s.up.lastServed := by
  unfold State.linkDown
  cases p <;> split <;> rfl
@[simp] theorem State.linkDown_up_lastNote (s : State) (p : Port) :
    (s.linkDown p).up.lastNote = s.up.lastNote := by
  unfold State.linkDown
  cases p <;> split <;> rfl
@[simp] theorem State.linkDown_up_laneNotes (s : State) (p : Port) :
    (s.linkDown p).up.laneNotes = s.up.laneNotes := by
  unfold State.linkDown
  cases p <;> split <;> rfl
@[simp] theorem State.linkDown_dp_sending (s : State) (p : Port) :
    (s.linkDown p).dp.sending = s.dp.sending := by
  unfold State.linkDown
  cases p <;> split <;> rfl
@[simp] theorem State.linkDown_dp_forward (s : State) (p : Port) :
    (s.linkDown p).dp.forward = s.dp.forward := by
  unfold State.linkDown
  cases p <;> split <;> rfl
@[simp] theorem State.linkDown_dp_urgent (s : State) (p : Port) :
    (s.linkDown p).dp.urgent = s.dp.urgent := by
  unfold State.linkDown
  cases p <;> split <;> rfl
@[simp] theorem State.linkDown_dp_slots (s : State) (p : Port) :
    (s.linkDown p).dp.slots = s.dp.slots := by
  unfold State.linkDown
  cases p <;> split <;> rfl
@[simp] theorem State.linkDown_dp_lastServed (s : State) (p : Port) :
    (s.linkDown p).dp.lastServed = s.dp.lastServed := by
  unfold State.linkDown
  cases p <;> split <;> rfl
@[simp] theorem State.linkDown_dp_lastLane (s : State) (p : Port) :
    (s.linkDown p).dp.lastLane = s.dp.lastLane := by
  unfold State.linkDown
  cases p <;> split <;> rfl
@[simp] theorem State.linkDown_lane (s : State) (p : Port) (k : LaneId) :
    (s.linkDown p).lane k = s.lane k := by
  simp only [State.lane, State.linkDown_lanes]
@[simp] theorem State.linkDown_queue (s : State) (p : Port) (k : LaneId) :
    (s.linkDown p).queue k = s.queue k := by
  simp only [State.queue, State.linkDown_orders]
@[simp] theorem State.linkDown_activeOrder (s : State) (p : Port) (k : LaneId) :
    (s.linkDown p).activeOrder k = s.activeOrder k := by
  simp only [State.activeOrder, State.queue, State.linkDown_orders]
@[simp] theorem State.linkDown_headOf (s : State) (p : Port) (k : LaneId) :
    (s.linkDown p).headOf k = s.headOf k := by
  simp only [State.headOf, State.linkDown_routes]
@[simp] theorem State.linkDown_isolationOf (s : State) (p : Port) (k : LaneId) :
    (s.linkDown p).isolationOf k = s.isolationOf k := by
  simp only [State.isolationOf, State.linkDown_routes]
@[simp] theorem State.linkDown_headLane (s : State) (p : Port) (b' : Byte) :
    (s.linkDown p).headLane b' = s.headLane b' := by
  simp only [State.headLane, State.linkDown_routes]
@[simp] theorem State.linkDown_transparent (s : State) (p : Port) :
    (s.linkDown p).transparent = s.transparent := by
  simp only [State.transparent, State.linkDown_straps]
@[simp] theorem State.linkDown_address (s : State) (p : Port) :
    (s.linkDown p).address = s.address := by
  simp only [State.address, State.linkDown_straps]
@[simp] theorem State.linkDown_routeAt (s : State) (p : Port) (i' : Nat) :
    (s.linkDown p).routeAt i' = s.routeAt i' := by
  simp only [State.routeAt, State.linkDown_routes]

/-! ### An end delimiter -/

@[simp] theorem State.endDelimiter_straps (s : State) (p : Port) :
    (s.endDelimiter p).straps = s.straps := by
  unfold State.endDelimiter
  cases p <;> repeat' split
  all_goals first | rfl | (dsimp only; split <;> rfl)
@[simp] theorem State.endDelimiter_held (s : State) (p : Port) :
    (s.endDelimiter p).held = s.held := by
  unfold State.endDelimiter
  cases p <;> repeat' split
  all_goals first | rfl | (dsimp only; split <;> rfl)
@[simp] theorem State.endDelimiter_clock (s : State) (p : Port) :
    (s.endDelimiter p).clock = s.clock := by
  unfold State.endDelimiter
  cases p <;> repeat' split
  all_goals first | rfl | (dsimp only; split <;> rfl)
@[simp] theorem State.endDelimiter_routes (s : State) (p : Port) :
    (s.endDelimiter p).routes = s.routes := by
  unfold State.endDelimiter
  cases p <;> repeat' split
  all_goals first | rfl | (dsimp only; split <;> rfl)
@[simp] theorem State.endDelimiter_lanes (s : State) (p : Port) :
    (s.endDelimiter p).lanes = s.lanes := by
  unfold State.endDelimiter
  cases p <;> repeat' split
  all_goals first | rfl | (dsimp only; split <;> rfl)
@[simp] theorem State.endDelimiter_orders (s : State) (p : Port) :
    (s.endDelimiter p).orders = s.orders := by
  unfold State.endDelimiter
  cases p <;> repeat' split
  all_goals first | rfl | (dsimp only; split <;> rfl)
@[simp] theorem State.endDelimiter_records (s : State) (p : Port) :
    (s.endDelimiter p).records = s.records := by
  unfold State.endDelimiter
  cases p <;> repeat' split
  all_goals first | rfl | (dsimp only; split <;> rfl)
@[simp] theorem State.endDelimiter_reservations (s : State) (p : Port) :
    (s.endDelimiter p).reservations = s.reservations := by
  unfold State.endDelimiter
  cases p <;> repeat' split
  all_goals first | rfl | (dsimp only; split <;> rfl)
@[simp] theorem State.endDelimiter_controller (s : State) (p : Port) :
    (s.endDelimiter p).controller = s.controller := by
  unfold State.endDelimiter
  cases p <;> repeat' split
  all_goals first | rfl | (dsimp only; split <;> rfl)
@[simp] theorem State.endDelimiter_restart (s : State) (p : Port) :
    (s.endDelimiter p).restart = s.restart := by
  unfold State.endDelimiter
  cases p <;> repeat' split
  all_goals first | rfl | (dsimp only; split <;> rfl)
@[simp] theorem State.endDelimiter_unanswered (s : State) (p : Port) :
    (s.endDelimiter p).unanswered = s.unanswered := by
  unfold State.endDelimiter
  cases p <;> repeat' split
  all_goals first | rfl | (dsimp only; split <;> rfl)
@[simp] theorem State.endDelimiter_wrongPort (s : State) (p : Port) :
    (s.endDelimiter p).wrongPort = s.wrongPort := by
  unfold State.endDelimiter
  cases p <;> repeat' split
  all_goals first | rfl | (dsimp only; split <;> rfl)
@[simp] theorem State.endDelimiter_toLanes (s : State) (p : Port) :
    (s.endDelimiter p).toLanes = s.toLanes := by
  unfold State.endDelimiter
  cases p <;> repeat' split
  all_goals first | rfl | (dsimp only; split <;> rfl)
@[simp] theorem State.endDelimiter_toResponder (s : State) (p : Port) :
    (s.endDelimiter p).toResponder = s.toResponder := by
  unfold State.endDelimiter
  cases p <;> repeat' split
  all_goals first | rfl | (dsimp only; split <;> rfl)
@[simp] theorem State.endDelimiter_pending (s : State) (p : Port) :
    (s.endDelimiter p).pending = s.pending := by
  unfold State.endDelimiter
  cases p <;> repeat' split
  all_goals first | rfl | (dsimp only; split <;> rfl)
@[simp] theorem State.endDelimiter_up_sending (s : State) (p : Port) :
    (s.endDelimiter p).up.sending = s.up.sending := by
  unfold State.endDelimiter
  cases p <;> repeat' split
  all_goals first | rfl | (dsimp only; split <;> rfl)
@[simp] theorem State.endDelimiter_up_forward (s : State) (p : Port) :
    (s.endDelimiter p).up.forward = s.up.forward := by
  unfold State.endDelimiter
  cases p <;> repeat' split
  all_goals first | rfl | (dsimp only; split <;> rfl)
@[simp] theorem State.endDelimiter_up_replies (s : State) (p : Port) :
    (s.endDelimiter p).up.replies = s.up.replies := by
  unfold State.endDelimiter
  cases p <;> repeat' split
  all_goals first | rfl | (dsimp only; split <;> rfl)
@[simp] theorem State.endDelimiter_up_lastServed (s : State) (p : Port) :
    (s.endDelimiter p).up.lastServed = s.up.lastServed := by
  unfold State.endDelimiter
  cases p <;> repeat' split
  all_goals first | rfl | (dsimp only; split <;> rfl)
@[simp] theorem State.endDelimiter_up_lastNote (s : State) (p : Port) :
    (s.endDelimiter p).up.lastNote = s.up.lastNote := by
  unfold State.endDelimiter
  cases p <;> repeat' split
  all_goals first | rfl | (dsimp only; split <;> rfl)
@[simp] theorem State.endDelimiter_up_laneNotes (s : State) (p : Port) :
    (s.endDelimiter p).up.laneNotes = s.up.laneNotes := by
  unfold State.endDelimiter
  cases p <;> repeat' split
  all_goals first | rfl | (dsimp only; split <;> rfl)
@[simp] theorem State.endDelimiter_up_unitNote (s : State) (p : Port) :
    (s.endDelimiter p).up.unitNote = s.up.unitNote := by
  unfold State.endDelimiter
  cases p <;> repeat' split
  all_goals first | rfl | (dsimp only; split <;> rfl)
@[simp] theorem State.endDelimiter_dp_sending (s : State) (p : Port) :
    (s.endDelimiter p).dp.sending = s.dp.sending := by
  unfold State.endDelimiter
  cases p <;> repeat' split
  all_goals first | rfl | (dsimp only; split <;> rfl)
@[simp] theorem State.endDelimiter_dp_forward (s : State) (p : Port) :
    (s.endDelimiter p).dp.forward = s.dp.forward := by
  unfold State.endDelimiter
  cases p <;> repeat' split
  all_goals first | rfl | (dsimp only; split <;> rfl)
@[simp] theorem State.endDelimiter_dp_urgent (s : State) (p : Port) :
    (s.endDelimiter p).dp.urgent = s.dp.urgent := by
  unfold State.endDelimiter
  cases p <;> repeat' split
  all_goals first | rfl | (dsimp only; split <;> rfl)
@[simp] theorem State.endDelimiter_dp_slots (s : State) (p : Port) :
    (s.endDelimiter p).dp.slots = s.dp.slots := by
  unfold State.endDelimiter
  cases p <;> repeat' split
  all_goals first | rfl | (dsimp only; split <;> rfl)
@[simp] theorem State.endDelimiter_dp_lastServed (s : State) (p : Port) :
    (s.endDelimiter p).dp.lastServed = s.dp.lastServed := by
  unfold State.endDelimiter
  cases p <;> repeat' split
  all_goals first | rfl | (dsimp only; split <;> rfl)
@[simp] theorem State.endDelimiter_dp_lastLane (s : State) (p : Port) :
    (s.endDelimiter p).dp.lastLane = s.dp.lastLane := by
  unfold State.endDelimiter
  cases p <;> repeat' split
  all_goals first | rfl | (dsimp only; split <;> rfl)
@[simp] theorem State.endDelimiter_lane (s : State) (p : Port) (k : LaneId) :
    (s.endDelimiter p).lane k = s.lane k := by
  simp only [State.lane, State.endDelimiter_lanes]
@[simp] theorem State.endDelimiter_queue (s : State) (p : Port) (k : LaneId) :
    (s.endDelimiter p).queue k = s.queue k := by
  simp only [State.queue, State.endDelimiter_orders]
@[simp] theorem State.endDelimiter_activeOrder (s : State) (p : Port) (k : LaneId) :
    (s.endDelimiter p).activeOrder k = s.activeOrder k := by
  simp only [State.activeOrder, State.queue, State.endDelimiter_orders]
@[simp] theorem State.endDelimiter_headOf (s : State) (p : Port) (k : LaneId) :
    (s.endDelimiter p).headOf k = s.headOf k := by
  simp only [State.headOf, State.endDelimiter_routes]
@[simp] theorem State.endDelimiter_isolationOf (s : State) (p : Port) (k : LaneId) :
    (s.endDelimiter p).isolationOf k = s.isolationOf k := by
  simp only [State.isolationOf, State.endDelimiter_routes]
@[simp] theorem State.endDelimiter_headLane (s : State) (p : Port) (b' : Byte) :
    (s.endDelimiter p).headLane b' = s.headLane b' := by
  simp only [State.headLane, State.endDelimiter_routes]
@[simp] theorem State.endDelimiter_transparent (s : State) (p : Port) :
    (s.endDelimiter p).transparent = s.transparent := by
  simp only [State.transparent, State.endDelimiter_straps]
@[simp] theorem State.endDelimiter_address (s : State) (p : Port) :
    (s.endDelimiter p).address = s.address := by
  simp only [State.address, State.endDelimiter_straps]
@[simp] theorem State.endDelimiter_routeAt (s : State) (p : Port) (i' : Nat) :
    (s.endDelimiter p).routeAt i' = s.routeAt i' := by
  simp only [State.routeAt, State.endDelimiter_routes]

/-! ### The time base at an expiry -/

@[simp] theorem State.atExpiry_straps (s : State) (t : Timer) :
    (s.atExpiry t).straps = s.straps := by
  unfold State.atExpiry
  split <;> rfl
@[simp] theorem State.atExpiry_held (s : State) (t : Timer) :
    (s.atExpiry t).held = s.held := by
  unfold State.atExpiry
  split <;> rfl
@[simp] theorem State.atExpiry_routes (s : State) (t : Timer) :
    (s.atExpiry t).routes = s.routes := by
  unfold State.atExpiry
  split <;> rfl
@[simp] theorem State.atExpiry_lanes (s : State) (t : Timer) :
    (s.atExpiry t).lanes = s.lanes := by
  unfold State.atExpiry
  split <;> rfl
@[simp] theorem State.atExpiry_orders (s : State) (t : Timer) :
    (s.atExpiry t).orders = s.orders := by
  unfold State.atExpiry
  split <;> rfl
@[simp] theorem State.atExpiry_records (s : State) (t : Timer) :
    (s.atExpiry t).records = s.records := by
  unfold State.atExpiry
  split <;> rfl
@[simp] theorem State.atExpiry_reservations (s : State) (t : Timer) :
    (s.atExpiry t).reservations = s.reservations := by
  unfold State.atExpiry
  split <;> rfl
@[simp] theorem State.atExpiry_up (s : State) (t : Timer) :
    (s.atExpiry t).up = s.up := by
  unfold State.atExpiry
  split <;> rfl
@[simp] theorem State.atExpiry_dp (s : State) (t : Timer) :
    (s.atExpiry t).dp = s.dp := by
  unfold State.atExpiry
  split <;> rfl
@[simp] theorem State.atExpiry_controller (s : State) (t : Timer) :
    (s.atExpiry t).controller = s.controller := by
  unfold State.atExpiry
  split <;> rfl
@[simp] theorem State.atExpiry_restart (s : State) (t : Timer) :
    (s.atExpiry t).restart = s.restart := by
  unfold State.atExpiry
  split <;> rfl
@[simp] theorem State.atExpiry_unanswered (s : State) (t : Timer) :
    (s.atExpiry t).unanswered = s.unanswered := by
  unfold State.atExpiry
  split <;> rfl
@[simp] theorem State.atExpiry_wrongPort (s : State) (t : Timer) :
    (s.atExpiry t).wrongPort = s.wrongPort := by
  unfold State.atExpiry
  split <;> rfl
@[simp] theorem State.atExpiry_toSwitch (s : State) (t : Timer) :
    (s.atExpiry t).toSwitch = s.toSwitch := by
  unfold State.atExpiry
  split <;> rfl
@[simp] theorem State.atExpiry_toLanes (s : State) (t : Timer) :
    (s.atExpiry t).toLanes = s.toLanes := by
  unfold State.atExpiry
  split <;> rfl
@[simp] theorem State.atExpiry_toResponder (s : State) (t : Timer) :
    (s.atExpiry t).toResponder = s.toResponder := by
  unfold State.atExpiry
  split <;> rfl
@[simp] theorem State.atExpiry_pending (s : State) (t : Timer) :
    (s.atExpiry t).pending = s.pending := by
  unfold State.atExpiry
  split <;> rfl
@[simp] theorem State.atExpiry_lane (s : State) (t : Timer) (k : LaneId) :
    (s.atExpiry t).lane k = s.lane k := by
  simp only [State.lane, State.atExpiry_lanes]
@[simp] theorem State.atExpiry_queue (s : State) (t : Timer) (k : LaneId) :
    (s.atExpiry t).queue k = s.queue k := by
  simp only [State.queue, State.atExpiry_orders]
@[simp] theorem State.atExpiry_activeOrder (s : State) (t : Timer) (k : LaneId) :
    (s.atExpiry t).activeOrder k = s.activeOrder k := by
  simp only [State.activeOrder, State.queue, State.atExpiry_orders]
@[simp] theorem State.atExpiry_headOf (s : State) (t : Timer) (k : LaneId) :
    (s.atExpiry t).headOf k = s.headOf k := by
  simp only [State.headOf, State.atExpiry_routes]
@[simp] theorem State.atExpiry_isolationOf (s : State) (t : Timer) (k : LaneId) :
    (s.atExpiry t).isolationOf k = s.isolationOf k := by
  simp only [State.isolationOf, State.atExpiry_routes]
@[simp] theorem State.atExpiry_headLane (s : State) (t : Timer) (b' : Byte) :
    (s.atExpiry t).headLane b' = s.headLane b' := by
  simp only [State.headLane, State.atExpiry_routes]
@[simp] theorem State.atExpiry_transparent (s : State) (t : Timer) :
    (s.atExpiry t).transparent = s.transparent := by
  simp only [State.transparent, State.atExpiry_straps]
@[simp] theorem State.atExpiry_address (s : State) (t : Timer) :
    (s.atExpiry t).address = s.address := by
  simp only [State.address, State.atExpiry_straps]
@[simp] theorem State.atExpiry_routeAt (s : State) (t : Timer) (i' : Nat) :
    (s.atExpiry t).routeAt i' = s.routeAt i' := by
  simp only [State.routeAt, State.atExpiry_routes]

/-! ### What a selection answers -/

/-- A selection gives one of the two classes' states, or the idle one. -/
theorem alternate_cases (last : Served) (own forward : Option State) (idle : State) :
    own = some (alternate last own forward idle) ∨ forward = some (alternate last own forward idle)
      ∨ alternate last own forward idle = idle := by
  cases last <;> cases own <;> cases forward <;> simp [alternate]

/-- What a selection by DP answers: nothing new, an urgent entry, a slot's command or a forwarded frame. -/
theorem State.selectDp_cases (s : State) :
    s.selectDp = s
      ∨ (∃ e, s.dp.sending = none ∧ (s.dp.urgent.find? fun e => !e.sending) = some e ∧ s.selectDp =
          { s with dp := { s.dp with sending := some (s.urgentFrame e), urgent := markFirst s.dp.urgent } })
      ∨ (∃ n c, s.dp.sending = none ∧ s.dp.nextSlot = some (n, c) ∧ s.selectDp =
          { s with dp := { s.dp with
            sending := some (s.slotFrame c), slots := s.dp.slots.set n none, lastServed := .own, lastLane := n } })
      ∨ (∃ f rest, s.dp.sending = none ∧ s.dp.forward = f :: rest ∧ s.selectDp =
          { s with dp := { s.dp with sending := some f, forward := rest, lastServed := .forward } }) := by
  cases hs : s.dp.sending with
  | some f => exact .inl (by simp [State.selectDp, hs])
  | none =>
    cases hu : s.dp.urgent.find? fun e => !e.sending with
    | some e => exact .inr (.inl ⟨e, rfl, rfl, by simp only [State.selectDp, hs, hu]⟩)
    | none =>
      have hsel : s.selectDp = alternate s.dp.lastServed s.serveSlots s.serveForwardDown s := by
        simp only [State.selectDp, hs, hu]
      rw [hsel]
      have h := alternate_cases s.dp.lastServed s.serveSlots s.serveForwardDown s
      generalize alternate s.dp.lastServed s.serveSlots s.serveForwardDown s = t at h ⊢
      rcases h with h | h | h
      · obtain ⟨⟨n, c⟩, hn, h⟩ := Option.map_eq_some_iff.mp h
        exact .inr (.inr (.inl ⟨n, c, rfl, hn, h.symm⟩))
      · unfold State.serveForwardDown at h
        split at h
        · rename_i f rest hf
          exact .inr (.inr (.inr ⟨f, rest, rfl, hf, (Option.some.inj h).symm⟩))
        · cases h
      · exact .inl h

/-- What a selection by UP answers: nothing new, a reply, a note or a forwarded frame. -/
theorem State.selectUp_cases (s : State) :
    s.selectUp = s
      ∨ (∃ r rest, s.up.sending = none ∧ s.up.replies = r :: rest ∧ s.selectUp =
          { s with up := { s.up with
            sending := some (makeFrame r.dest s.address kindReply r.payload), replies := rest, lastServed := .own } })
      ∨ (∃ x, s.up.sending = none ∧ s.up.replies = [] ∧ s.controller ≠ 0 ∧ s.up.notePending x = true ∧ s.selectUp = s.sendNote x)
      ∨ (∃ f rest, s.up.sending = none ∧ s.up.forward = f :: rest ∧ s.selectUp =
          { s with up := { s.up with sending := some f, forward := rest, lastServed := .forward } }) := by
  cases hs : s.up.sending with
  | some f => exact .inl (by simp [State.selectUp, hs])
  | none =>
    have hsel : s.selectUp = alternate s.up.lastServed s.serveOwn s.serveForwardUp s := by
      simp only [State.selectUp, hs]
    rw [hsel]
    have h := alternate_cases s.up.lastServed s.serveOwn s.serveForwardUp s
    generalize alternate s.up.lastServed s.serveOwn s.serveForwardUp s = t at h ⊢
    rcases h with h | h | h
    · unfold State.serveOwn at h
      split at h
      · rename_i r rest hr
        exact .inr (.inl ⟨r, rest, rfl, hr, (Option.some.inj h).symm⟩)
      · rename_i hr
        split at h
        · cases h
        · rename_i hc
          obtain ⟨x, hx, h⟩ := Option.map_eq_some_iff.mp h
          exact .inr (.inr (.inl ⟨x, rfl, hr, hc, by simpa using List.find?_some hx, h.symm⟩))
    · unfold State.serveForwardUp at h
      split at h
      · rename_i f rest hf
        exact .inr (.inr (.inr ⟨f, rest, rfl, hf, (Option.some.inj h).symm⟩))
      · cases h
    · exact .inl h

/-! ### A selection on DP -/

@[simp] theorem State.selectDp_straps (s : State) : (s.selectDp).straps = s.straps := by
  rcases s.selectDp_cases with h | ⟨_, _, _, h⟩ | ⟨_, _, _, _, h⟩ | ⟨_, _, _, _, h⟩ <;> rw [h]
@[simp] theorem State.selectDp_held (s : State) : (s.selectDp).held = s.held := by
  rcases s.selectDp_cases with h | ⟨_, _, _, h⟩ | ⟨_, _, _, _, h⟩ | ⟨_, _, _, _, h⟩ <;> rw [h]
@[simp] theorem State.selectDp_clock (s : State) : (s.selectDp).clock = s.clock := by
  rcases s.selectDp_cases with h | ⟨_, _, _, h⟩ | ⟨_, _, _, _, h⟩ | ⟨_, _, _, _, h⟩ <;> rw [h]
@[simp] theorem State.selectDp_routes (s : State) : (s.selectDp).routes = s.routes := by
  rcases s.selectDp_cases with h | ⟨_, _, _, h⟩ | ⟨_, _, _, _, h⟩ | ⟨_, _, _, _, h⟩ <;> rw [h]
@[simp] theorem State.selectDp_lanes (s : State) : (s.selectDp).lanes = s.lanes := by
  rcases s.selectDp_cases with h | ⟨_, _, _, h⟩ | ⟨_, _, _, _, h⟩ | ⟨_, _, _, _, h⟩ <;> rw [h]
@[simp] theorem State.selectDp_orders (s : State) : (s.selectDp).orders = s.orders := by
  rcases s.selectDp_cases with h | ⟨_, _, _, h⟩ | ⟨_, _, _, _, h⟩ | ⟨_, _, _, _, h⟩ <;> rw [h]
@[simp] theorem State.selectDp_records (s : State) : (s.selectDp).records = s.records := by
  rcases s.selectDp_cases with h | ⟨_, _, _, h⟩ | ⟨_, _, _, _, h⟩ | ⟨_, _, _, _, h⟩ <;> rw [h]
@[simp] theorem State.selectDp_reservations (s : State) : (s.selectDp).reservations = s.reservations := by
  rcases s.selectDp_cases with h | ⟨_, _, _, h⟩ | ⟨_, _, _, _, h⟩ | ⟨_, _, _, _, h⟩ <;> rw [h]
@[simp] theorem State.selectDp_up (s : State) : (s.selectDp).up = s.up := by
  rcases s.selectDp_cases with h | ⟨_, _, _, h⟩ | ⟨_, _, _, _, h⟩ | ⟨_, _, _, _, h⟩ <;> rw [h]
@[simp] theorem State.selectDp_controller (s : State) : (s.selectDp).controller = s.controller := by
  rcases s.selectDp_cases with h | ⟨_, _, _, h⟩ | ⟨_, _, _, _, h⟩ | ⟨_, _, _, _, h⟩ <;> rw [h]
@[simp] theorem State.selectDp_restart (s : State) : (s.selectDp).restart = s.restart := by
  rcases s.selectDp_cases with h | ⟨_, _, _, h⟩ | ⟨_, _, _, _, h⟩ | ⟨_, _, _, _, h⟩ <;> rw [h]
@[simp] theorem State.selectDp_unanswered (s : State) : (s.selectDp).unanswered = s.unanswered := by
  rcases s.selectDp_cases with h | ⟨_, _, _, h⟩ | ⟨_, _, _, _, h⟩ | ⟨_, _, _, _, h⟩ <;> rw [h]
@[simp] theorem State.selectDp_wrongPort (s : State) : (s.selectDp).wrongPort = s.wrongPort := by
  rcases s.selectDp_cases with h | ⟨_, _, _, h⟩ | ⟨_, _, _, _, h⟩ | ⟨_, _, _, _, h⟩ <;> rw [h]
@[simp] theorem State.selectDp_toSwitch (s : State) : (s.selectDp).toSwitch = s.toSwitch := by
  rcases s.selectDp_cases with h | ⟨_, _, _, h⟩ | ⟨_, _, _, _, h⟩ | ⟨_, _, _, _, h⟩ <;> rw [h]
@[simp] theorem State.selectDp_toLanes (s : State) : (s.selectDp).toLanes = s.toLanes := by
  rcases s.selectDp_cases with h | ⟨_, _, _, h⟩ | ⟨_, _, _, _, h⟩ | ⟨_, _, _, _, h⟩ <;> rw [h]
@[simp] theorem State.selectDp_toResponder (s : State) : (s.selectDp).toResponder = s.toResponder := by
  rcases s.selectDp_cases with h | ⟨_, _, _, h⟩ | ⟨_, _, _, _, h⟩ | ⟨_, _, _, _, h⟩ <;> rw [h]
@[simp] theorem State.selectDp_pending (s : State) : (s.selectDp).pending = s.pending := by
  rcases s.selectDp_cases with h | ⟨_, _, _, h⟩ | ⟨_, _, _, _, h⟩ | ⟨_, _, _, _, h⟩ <;> rw [h]
@[simp] theorem State.selectDp_dp_common (s : State) : (s.selectDp).dp.common = s.dp.common := by
  rcases s.selectDp_cases with h | ⟨_, _, _, h⟩ | ⟨_, _, _, _, h⟩ | ⟨_, _, _, _, h⟩ <;> rw [h]
@[simp] theorem State.selectDp_lane (s : State) (k : LaneId) :
    (s.selectDp).lane k = s.lane k := by
  simp only [State.lane, State.selectDp_lanes]
@[simp] theorem State.selectDp_queue (s : State) (k : LaneId) :
    (s.selectDp).queue k = s.queue k := by
  simp only [State.queue, State.selectDp_orders]
@[simp] theorem State.selectDp_activeOrder (s : State) (k : LaneId) :
    (s.selectDp).activeOrder k = s.activeOrder k := by
  simp only [State.activeOrder, State.queue, State.selectDp_orders]
@[simp] theorem State.selectDp_headOf (s : State) (k : LaneId) :
    (s.selectDp).headOf k = s.headOf k := by
  simp only [State.headOf, State.selectDp_routes]
@[simp] theorem State.selectDp_isolationOf (s : State) (k : LaneId) :
    (s.selectDp).isolationOf k = s.isolationOf k := by
  simp only [State.isolationOf, State.selectDp_routes]
@[simp] theorem State.selectDp_headLane (s : State) (b' : Byte) :
    (s.selectDp).headLane b' = s.headLane b' := by
  simp only [State.headLane, State.selectDp_routes]
@[simp] theorem State.selectDp_transparent (s : State) :
    (s.selectDp).transparent = s.transparent := by
  simp only [State.transparent, State.selectDp_straps]
@[simp] theorem State.selectDp_address (s : State) :
    (s.selectDp).address = s.address := by
  simp only [State.address, State.selectDp_straps]
@[simp] theorem State.selectDp_routeAt (s : State) (i' : Nat) :
    (s.selectDp).routeAt i' = s.routeAt i' := by
  simp only [State.routeAt, State.selectDp_routes]

/-! ### A selection on UP -/

@[simp] theorem State.selectUp_straps (s : State) : (s.selectUp).straps = s.straps := by
  rcases s.selectUp_cases with h | ⟨_, _, _, _, h⟩ | ⟨x, _, _, _, _, h⟩ | ⟨_, _, _, _, h⟩ <;> rw [h] <;> cases x <;> rfl
@[simp] theorem State.selectUp_held (s : State) : (s.selectUp).held = s.held := by
  rcases s.selectUp_cases with h | ⟨_, _, _, _, h⟩ | ⟨x, _, _, _, _, h⟩ | ⟨_, _, _, _, h⟩ <;> rw [h] <;> cases x <;> rfl
@[simp] theorem State.selectUp_clock (s : State) : (s.selectUp).clock = s.clock := by
  rcases s.selectUp_cases with h | ⟨_, _, _, _, h⟩ | ⟨x, _, _, _, _, h⟩ | ⟨_, _, _, _, h⟩ <;> rw [h] <;> cases x <;> rfl
@[simp] theorem State.selectUp_routes (s : State) : (s.selectUp).routes = s.routes := by
  rcases s.selectUp_cases with h | ⟨_, _, _, _, h⟩ | ⟨x, _, _, _, _, h⟩ | ⟨_, _, _, _, h⟩ <;> rw [h] <;> cases x <;> rfl
@[simp] theorem State.selectUp_orders (s : State) : (s.selectUp).orders = s.orders := by
  rcases s.selectUp_cases with h | ⟨_, _, _, _, h⟩ | ⟨x, _, _, _, _, h⟩ | ⟨_, _, _, _, h⟩ <;> rw [h] <;> cases x <;> rfl
@[simp] theorem State.selectUp_records (s : State) : (s.selectUp).records = s.records := by
  rcases s.selectUp_cases with h | ⟨_, _, _, _, h⟩ | ⟨x, _, _, _, _, h⟩ | ⟨_, _, _, _, h⟩ <;> rw [h] <;> cases x <;> rfl
@[simp] theorem State.selectUp_reservations (s : State) : (s.selectUp).reservations = s.reservations := by
  rcases s.selectUp_cases with h | ⟨_, _, _, _, h⟩ | ⟨x, _, _, _, _, h⟩ | ⟨_, _, _, _, h⟩ <;> rw [h] <;> cases x <;> rfl
@[simp] theorem State.selectUp_dp (s : State) : (s.selectUp).dp = s.dp := by
  rcases s.selectUp_cases with h | ⟨_, _, _, _, h⟩ | ⟨x, _, _, _, _, h⟩ | ⟨_, _, _, _, h⟩ <;> rw [h] <;> cases x <;> rfl
@[simp] theorem State.selectUp_controller (s : State) : (s.selectUp).controller = s.controller := by
  rcases s.selectUp_cases with h | ⟨_, _, _, _, h⟩ | ⟨x, _, _, _, _, h⟩ | ⟨_, _, _, _, h⟩ <;> rw [h] <;> cases x <;> rfl
@[simp] theorem State.selectUp_restart (s : State) : (s.selectUp).restart = s.restart := by
  rcases s.selectUp_cases with h | ⟨_, _, _, _, h⟩ | ⟨x, _, _, _, _, h⟩ | ⟨_, _, _, _, h⟩ <;> rw [h] <;> cases x <;> rfl
@[simp] theorem State.selectUp_unanswered (s : State) : (s.selectUp).unanswered = s.unanswered := by
  rcases s.selectUp_cases with h | ⟨_, _, _, _, h⟩ | ⟨x, _, _, _, _, h⟩ | ⟨_, _, _, _, h⟩ <;> rw [h] <;> cases x <;> rfl
@[simp] theorem State.selectUp_wrongPort (s : State) : (s.selectUp).wrongPort = s.wrongPort := by
  rcases s.selectUp_cases with h | ⟨_, _, _, _, h⟩ | ⟨x, _, _, _, _, h⟩ | ⟨_, _, _, _, h⟩ <;> rw [h] <;> cases x <;> rfl
@[simp] theorem State.selectUp_toSwitch (s : State) : (s.selectUp).toSwitch = s.toSwitch := by
  rcases s.selectUp_cases with h | ⟨_, _, _, _, h⟩ | ⟨x, _, _, _, _, h⟩ | ⟨_, _, _, _, h⟩ <;> rw [h] <;> cases x <;> rfl
@[simp] theorem State.selectUp_toLanes (s : State) : (s.selectUp).toLanes = s.toLanes := by
  rcases s.selectUp_cases with h | ⟨_, _, _, _, h⟩ | ⟨x, _, _, _, _, h⟩ | ⟨_, _, _, _, h⟩ <;> rw [h] <;> cases x <;> rfl
@[simp] theorem State.selectUp_toResponder (s : State) : (s.selectUp).toResponder = s.toResponder := by
  rcases s.selectUp_cases with h | ⟨_, _, _, _, h⟩ | ⟨x, _, _, _, _, h⟩ | ⟨_, _, _, _, h⟩ <;> rw [h] <;> cases x <;> rfl
@[simp] theorem State.selectUp_pending (s : State) : (s.selectUp).pending = s.pending := by
  rcases s.selectUp_cases with h | ⟨_, _, _, _, h⟩ | ⟨x, _, _, _, _, h⟩ | ⟨_, _, _, _, h⟩ <;> rw [h] <;> cases x <;> rfl
@[simp] theorem State.selectUp_up_common (s : State) : (s.selectUp).up.common = s.up.common := by
  rcases s.selectUp_cases with h | ⟨_, _, _, _, h⟩ | ⟨x, _, _, _, _, h⟩ | ⟨_, _, _, _, h⟩ <;> rw [h] <;> cases x <;> rfl
@[simp] theorem State.selectUp_queue (s : State) (k : LaneId) :
    (s.selectUp).queue k = s.queue k := by
  simp only [State.queue, State.selectUp_orders]
@[simp] theorem State.selectUp_activeOrder (s : State) (k : LaneId) :
    (s.selectUp).activeOrder k = s.activeOrder k := by
  simp only [State.activeOrder, State.queue, State.selectUp_orders]
@[simp] theorem State.selectUp_headOf (s : State) (k : LaneId) :
    (s.selectUp).headOf k = s.headOf k := by
  simp only [State.headOf, State.selectUp_routes]
@[simp] theorem State.selectUp_isolationOf (s : State) (k : LaneId) :
    (s.selectUp).isolationOf k = s.isolationOf k := by
  simp only [State.isolationOf, State.selectUp_routes]
@[simp] theorem State.selectUp_headLane (s : State) (b' : Byte) :
    (s.selectUp).headLane b' = s.headLane b' := by
  simp only [State.headLane, State.selectUp_routes]
@[simp] theorem State.selectUp_transparent (s : State) :
    (s.selectUp).transparent = s.transparent := by
  simp only [State.transparent, State.selectUp_straps]
@[simp] theorem State.selectUp_address (s : State) :
    (s.selectUp).address = s.address := by
  simp only [State.address, State.selectUp_straps]
@[simp] theorem State.selectUp_routeAt (s : State) (i' : Nat) :
    (s.selectUp).routeAt i' = s.routeAt i' := by
  simp only [State.routeAt, State.selectUp_routes]

/-! ### The unit at the completion of a restart -/

@[simp] theorem State.restarted_straps (s : State) : (s.restarted).straps = s.straps := rfl
@[simp] theorem State.restarted_held (s : State) : (s.restarted).held = s.held := rfl
@[simp] theorem State.restarted_clock (s : State) : (s.restarted).clock = s.clock := rfl
@[simp] theorem State.restarted_routes (s : State) : (s.restarted).routes = s.routes := rfl
@[simp] theorem State.restarted_controller (s : State) : (s.restarted).controller = s.controller := rfl
@[simp] theorem State.restarted_toSwitch (s : State) : (s.restarted).toSwitch = s.toSwitch := rfl
@[simp] theorem State.restarted_toLanes (s : State) : (s.restarted).toLanes = s.toLanes := rfl
@[simp] theorem State.restarted_toResponder (s : State) : (s.restarted).toResponder = s.toResponder := rfl
@[simp] theorem State.restarted_pending (s : State) : (s.restarted).pending = s.pending := rfl
@[simp] theorem State.restarted_up_sending (s : State) : (s.restarted).up.sending = s.up.sending := rfl
@[simp] theorem State.restarted_dp_sending (s : State) : (s.restarted).dp.sending = s.dp.sending := rfl
@[simp] theorem State.restarted_headOf (s : State) (k : LaneId) : (s.restarted).headOf k = s.headOf k := rfl
@[simp] theorem State.restarted_isolationOf (s : State) (k : LaneId) :
    (s.restarted).isolationOf k = s.isolationOf k := rfl
@[simp] theorem State.restarted_headLane (s : State) (b' : Byte) : (s.restarted).headLane b' = s.headLane b' := rfl
@[simp] theorem State.restarted_transparent (s : State) : (s.restarted).transparent = s.transparent := rfl
@[simp] theorem State.restarted_address (s : State) : (s.restarted).address = s.address := rfl
@[simp] theorem State.restarted_routeAt (s : State) (i' : Nat) : (s.restarted).routeAt i' = s.routeAt i' := rfl

/-- What the end of a transmission on DP answers: nothing, the queue without the entry sent, or the completion of a
forced restart. -/
theorem State.transmitEndDp_cases (s : State) :
    (s.dp.sending = none ∧ s.transmitEndDp = s)
      ∨ (∃ f, s.dp.sending = some f ∧ s.transmitEndDp = { s with dp := { s.dp with
          sending := none, urgent := s.dp.urgent.filter fun e => !e.sending } })
      ∨ (∃ f r, s.dp.sending = some f ∧ s.restart = some r ∧ (s.dp.urgent.filter fun e => !e.sending) = []
          ∧ s.dp.urgent ≠ [] ∧ s.transmitEndDp = State.completeRestart { s with dp := { s.dp with
            sending := none, urgent := s.dp.urgent.filter fun e => !e.sending } } r .drained) := by
  cases hs : s.dp.sending with
  | none => exact .inl ⟨rfl, by simp [State.transmitEndDp, hs]⟩
  | some f =>
    cases hr : s.restart with
    | none => exact .inr (.inl ⟨f, rfl, by simp [State.transmitEndDp, hs, hr]⟩)
    | some r =>
      by_cases h : (s.dp.urgent.filter fun e => !e.sending) = [] ∧ s.dp.urgent ≠ []
      · refine .inr (.inr ⟨f, r, rfl, rfl, h.1, h.2, ?_⟩)
        simp only [State.transmitEndDp, hs, hr, if_pos h]
      · refine .inr (.inl ⟨f, rfl, ?_⟩)
        simp only [State.transmitEndDp, hs, hr, if_neg h]

end Sys2Proof.Machine
end

