-- ==== Sys2Proof/Laws/Requests.lean ====
section
/-! SUPPORT. Requests: what the responder does around an owner's decision, and what each decision can do to the unit. -/

namespace Sys2Proof.Machine

/-! ### A request decided -/

@[simp] theorem State.asked_straps (s : State) (src : Byte) (payload : List Byte) :
    (s.asked src payload).straps = s.straps := rfl
@[simp] theorem State.asked_held (s : State) (src : Byte) (payload : List Byte) :
    (s.asked src payload).held = s.held := rfl
@[simp] theorem State.asked_clock (s : State) (src : Byte) (payload : List Byte) :
    (s.asked src payload).clock = s.clock := rfl
@[simp] theorem State.asked_routes (s : State) (src : Byte) (payload : List Byte) :
    (s.asked src payload).routes = s.routes := rfl
@[simp] theorem State.asked_lanes (s : State) (src : Byte) (payload : List Byte) :
    (s.asked src payload).lanes = s.lanes := rfl
@[simp] theorem State.asked_orders (s : State) (src : Byte) (payload : List Byte) :
    (s.asked src payload).orders = s.orders := rfl
@[simp] theorem State.asked_records (s : State) (src : Byte) (payload : List Byte) :
    (s.asked src payload).records = s.records := rfl
@[simp] theorem State.asked_reservations (s : State) (src : Byte) (payload : List Byte) :
    (s.asked src payload).reservations = s.reservations := rfl
@[simp] theorem State.asked_up (s : State) (src : Byte) (payload : List Byte) : (s.asked src payload).up = s.up := rfl
@[simp] theorem State.asked_dp (s : State) (src : Byte) (payload : List Byte) : (s.asked src payload).dp = s.dp := rfl
@[simp] theorem State.asked_restart (s : State) (src : Byte) (payload : List Byte) :
    (s.asked src payload).restart = s.restart := rfl
@[simp] theorem State.asked_unanswered (s : State) (src : Byte) (payload : List Byte) :
    (s.asked src payload).unanswered = s.unanswered := rfl
@[simp] theorem State.asked_wrongPort (s : State) (src : Byte) (payload : List Byte) :
    (s.asked src payload).wrongPort = s.wrongPort := rfl
@[simp] theorem State.asked_toSwitch (s : State) (src : Byte) (payload : List Byte) :
    (s.asked src payload).toSwitch = s.toSwitch := rfl
@[simp] theorem State.asked_toLanes (s : State) (src : Byte) (payload : List Byte) :
    (s.asked src payload).toLanes = s.toLanes := rfl
@[simp] theorem State.asked_pending (s : State) (src : Byte) (payload : List Byte) :
    (s.asked src payload).pending = s.pending := rfl
@[simp] theorem State.asked_lane (s : State) (src : Byte) (payload : List Byte) (k : LaneId) :
    (s.asked src payload).lane k = s.lane k := rfl
@[simp] theorem State.asked_queue (s : State) (src : Byte) (payload : List Byte) (k : LaneId) :
    (s.asked src payload).queue k = s.queue k := rfl
@[simp] theorem State.asked_activeOrder (s : State) (src : Byte) (payload : List Byte) (k : LaneId) :
    (s.asked src payload).activeOrder k = s.activeOrder k := rfl
@[simp] theorem State.asked_headOf (s : State) (src : Byte) (payload : List Byte) (k : LaneId) :
    (s.asked src payload).headOf k = s.headOf k := rfl
@[simp] theorem State.asked_isolationOf (s : State) (src : Byte) (payload : List Byte) (k : LaneId) :
    (s.asked src payload).isolationOf k = s.isolationOf k := rfl
@[simp] theorem State.asked_headLane (s : State) (src : Byte) (payload : List Byte) (b' : Byte) :
    (s.asked src payload).headLane b' = s.headLane b' := rfl
@[simp] theorem State.asked_transparent (s : State) (src : Byte) (payload : List Byte) :
    (s.asked src payload).transparent = s.transparent := rfl
@[simp] theorem State.asked_address (s : State) (src : Byte) (payload : List Byte) :
    (s.asked src payload).address = s.address := rfl
@[simp] theorem State.asked_routeAt (s : State) (src : Byte) (payload : List Byte) (i' : Nat) :
    (s.asked src payload).routeAt i' = s.routeAt i' := rfl
@[simp] theorem State.asked_controller (s : State) (src : Byte) (payload : List Byte) : (s.asked src payload).controller = src := rfl

/-! ### A reply placed -/

@[simp] theorem State.replying_straps (s : State) (dest : Byte) (payload : List Byte) :
    (s.replying dest payload).straps = s.straps := rfl
@[simp] theorem State.replying_held (s : State) (dest : Byte) (payload : List Byte) :
    (s.replying dest payload).held = s.held := rfl
@[simp] theorem State.replying_clock (s : State) (dest : Byte) (payload : List Byte) :
    (s.replying dest payload).clock = s.clock := rfl
@[simp] theorem State.replying_routes (s : State) (dest : Byte) (payload : List Byte) :
    (s.replying dest payload).routes = s.routes := rfl
@[simp] theorem State.replying_lanes (s : State) (dest : Byte) (payload : List Byte) :
    (s.replying dest payload).lanes = s.lanes := rfl
@[simp] theorem State.replying_orders (s : State) (dest : Byte) (payload : List Byte) :
    (s.replying dest payload).orders = s.orders := rfl
@[simp] theorem State.replying_records (s : State) (dest : Byte) (payload : List Byte) :
    (s.replying dest payload).records = s.records := rfl
@[simp] theorem State.replying_reservations (s : State) (dest : Byte) (payload : List Byte) :
    (s.replying dest payload).reservations = s.reservations := rfl
@[simp] theorem State.replying_dp (s : State) (dest : Byte) (payload : List Byte) :
    (s.replying dest payload).dp = s.dp := rfl
@[simp] theorem State.replying_controller (s : State) (dest : Byte) (payload : List Byte) :
    (s.replying dest payload).controller = s.controller := rfl
@[simp] theorem State.replying_restart (s : State) (dest : Byte) (payload : List Byte) :
    (s.replying dest payload).restart = s.restart := rfl
@[simp] theorem State.replying_unanswered (s : State) (dest : Byte) (payload : List Byte) :
    (s.replying dest payload).unanswered = s.unanswered := rfl
@[simp] theorem State.replying_wrongPort (s : State) (dest : Byte) (payload : List Byte) :
    (s.replying dest payload).wrongPort = s.wrongPort := rfl
@[simp] theorem State.replying_toSwitch (s : State) (dest : Byte) (payload : List Byte) :
    (s.replying dest payload).toSwitch = s.toSwitch := rfl
@[simp] theorem State.replying_toLanes (s : State) (dest : Byte) (payload : List Byte) :
    (s.replying dest payload).toLanes = s.toLanes := rfl
@[simp] theorem State.replying_toResponder (s : State) (dest : Byte) (payload : List Byte) :
    (s.replying dest payload).toResponder = s.toResponder := rfl
@[simp] theorem State.replying_pending (s : State) (dest : Byte) (payload : List Byte) :
    (s.replying dest payload).pending = s.pending := rfl
@[simp] theorem State.replying_up_common (s : State) (dest : Byte) (payload : List Byte) :
    (s.replying dest payload).up.common = s.up.common := rfl
@[simp] theorem State.replying_up_sending (s : State) (dest : Byte) (payload : List Byte) :
    (s.replying dest payload).up.sending = s.up.sending := rfl
@[simp] theorem State.replying_up_forward (s : State) (dest : Byte) (payload : List Byte) :
    (s.replying dest payload).up.forward = s.up.forward := rfl
@[simp] theorem State.replying_up_lastServed (s : State) (dest : Byte) (payload : List Byte) :
    (s.replying dest payload).up.lastServed = s.up.lastServed := rfl
@[simp] theorem State.replying_up_lastNote (s : State) (dest : Byte) (payload : List Byte) :
    (s.replying dest payload).up.lastNote = s.up.lastNote := rfl
@[simp] theorem State.replying_up_laneNotes (s : State) (dest : Byte) (payload : List Byte) :
    (s.replying dest payload).up.laneNotes = s.up.laneNotes := rfl
@[simp] theorem State.replying_up_unitNote (s : State) (dest : Byte) (payload : List Byte) :
    (s.replying dest payload).up.unitNote = s.up.unitNote := rfl
@[simp] theorem State.replying_lane (s : State) (dest : Byte) (payload : List Byte) (k : LaneId) :
    (s.replying dest payload).lane k = s.lane k := rfl
@[simp] theorem State.replying_queue (s : State) (dest : Byte) (payload : List Byte) (k : LaneId) :
    (s.replying dest payload).queue k = s.queue k := rfl
@[simp] theorem State.replying_activeOrder (s : State) (dest : Byte) (payload : List Byte) (k : LaneId) :
    (s.replying dest payload).activeOrder k = s.activeOrder k := rfl
@[simp] theorem State.replying_headOf (s : State) (dest : Byte) (payload : List Byte) (k : LaneId) :
    (s.replying dest payload).headOf k = s.headOf k := rfl
@[simp] theorem State.replying_isolationOf (s : State) (dest : Byte) (payload : List Byte) (k : LaneId) :
    (s.replying dest payload).isolationOf k = s.isolationOf k := rfl
@[simp] theorem State.replying_headLane (s : State) (dest : Byte) (payload : List Byte) (b' : Byte) :
    (s.replying dest payload).headLane b' = s.headLane b' := rfl
@[simp] theorem State.replying_transparent (s : State) (dest : Byte) (payload : List Byte) :
    (s.replying dest payload).transparent = s.transparent := rfl
@[simp] theorem State.replying_address (s : State) (dest : Byte) (payload : List Byte) :
    (s.replying dest payload).address = s.address := rfl
@[simp] theorem State.replying_routeAt (s : State) (dest : Byte) (payload : List Byte) (i' : Nat) :
    (s.replying dest payload).routeAt i' = s.routeAt i' := rfl
@[simp] theorem State.replying_up_replies (s : State) (dest : Byte) (payload : List Byte) :
    (s.replying dest payload).up.replies = s.up.replies ++ [{ dest := dest, payload := payload }] := rfl

theorem State.queueReply_eq_replying (s : State) (src kind tagHi tagLo : Byte) (st : Status) (results : List Byte) :
    s.queueReply src kind tagHi tagLo st results = s.replying src ([kind, tagHi, tagLo, statusCode st] ++ results) := rfl

/-! ### The responder -/

/-- A reset pin that is not held lets a command act. -/
theorem State.whileRunning_of_not_held {s : State} (h : s.held = false) (f : State → State) : s.whileRunning f = f s := by
  simp [State.whileRunning, h]

/-- A request that is answered is its owner's decision, delivered. -/
theorem State.request_of_answers {s : State} {kind src hi lo : Byte} {args : List Byte}
    (h : s.Answers src (kind :: hi :: lo :: args)) (decide : Asked → State → Decision) :
    s.request kind src (hi :: lo :: args) decide =
      (decide { src, tagHi := hi, tagLo := lo, args } (s.asked src (kind :: hi :: lo :: args))).deliver kind
        { src, tagHi := hi, tagLo := lo, args } := by
  obtain ⟨⟨h1, h2⟩, h3, h5⟩ := h
  have h4 : ¬4 ≤ s.up.replies.length := by omega
  simp only [State.request, State.whileRunning_of_not_held h1, State.respond, h2, h5, Bool.not_true, Bool.or_self,
    Bool.false_eq_true, if_false]
  rw [if_neg h4]
  rfl

/-- A request that is answered and too short for its tag. -/
theorem State.request_of_answers_one {s : State} {kind src hi : Byte} (h : s.Answers src [kind, hi])
    (decide : Asked → State → Decision) :
    s.request kind src [hi] decide = (s.asked src [kind, hi]).replying src [kind, hi, 0, 4] := by
  obtain ⟨⟨h1, h2⟩, h3, h5⟩ := h
  have h4 : ¬4 ≤ s.up.replies.length := by omega
  simp only [State.request, State.whileRunning_of_not_held h1, State.respond, h2, h5, Bool.not_true, Bool.or_self,
    Bool.false_eq_true, if_false]
  rw [if_neg h4]
  rfl

/-- A request that is answered and carries nothing after its kind. -/
theorem State.request_of_answers_nil {s : State} {kind src : Byte} (h : s.Answers src [kind])
    (decide : Asked → State → Decision) :
    s.request kind src [] decide = (s.asked src [kind]).replying src [kind, 0, 0, 4] := by
  obtain ⟨⟨h1, h2⟩, h3, h5⟩ := h
  have h4 : ¬4 ≤ s.up.replies.length := by omega
  simp only [State.request, State.whileRunning_of_not_held h1, State.respond, h2, h5, Bool.not_true, Bool.or_self,
    Bool.false_eq_true, if_false]
  rw [if_neg h4]
  rfl

/-- A request in transparent mode is not taken. -/
theorem State.request_of_transparent {s : State} (h1 : s.held = false) (h2 : s.transparent = true) (kind src : Byte)
    (body : List Byte) (decide : Asked → State → Decision) : s.request kind src body decide = s := by
  simp [State.request, State.whileRunning_of_not_held h1, State.respond, h2]

/-- A request that finds four replies waiting is discarded. -/
theorem State.request_of_full {s : State} (h1 : s.held = false) (h2 : s.transparent = false) (h3 : 4 ≤ s.up.replies.length)
    {kind src : Byte} {body : List Byte} (h4 : inTurn s.toResponder (src, kind :: body) = true)
    (decide : Asked → State → Decision) :
    s.request kind src body decide =
      { s with toResponder := s.toResponder.erase (src, kind :: body), unanswered := bump s.unanswered } := by
  simp only [State.request, State.whileRunning_of_not_held h1, State.respond, h2, h4, Bool.not_true, Bool.or_self,
    Bool.false_eq_true, if_false]
  rw [if_pos h3]
  rfl

/-- A request that is not next in the order of hand-over is not taken. -/
theorem State.request_out_of_turn {s : State} (h1 : s.held = false) {kind src : Byte} {body : List Byte}
    (h2 : inTurn s.toResponder (src, kind :: body) = false) (decide : Asked → State → Decision) :
    s.request kind src body decide = s := by
  simp [State.request, State.whileRunning_of_not_held h1, State.respond, h2]

@[simp] theorem accept_deliver (s : State) (results : List Byte) (kind : Byte) (a : Asked) :
    (accept s results).deliver kind a = s.replying a.src ([kind, a.tagHi, a.tagLo, 0] ++ results) := rfl

@[simp] theorem refuse_deliver (s : State) (st : Status) (kind : Byte) (a : Asked) :
    (refuse s st).deliver kind a = s.replying a.src [kind, a.tagHi, a.tagLo, statusCode st] := rfl

@[simp] theorem refuseWith_deliver (s : State) (st : Status) (results : List Byte) (kind : Byte) (a : Asked) :
    (refuseWith s st results).deliver kind a = s.replying a.src ([kind, a.tagHi, a.tagLo, statusCode st] ++ results) := rfl

@[simp] theorem accept_state (s : State) (results : List Byte) : (accept s results).state = s := rfl

@[simp] theorem refuse_state (s : State) (st : Status) : (refuse s st).state = s := rfl

@[simp] theorem refuseWith_state (s : State) (st : Status) (results : List Byte) : (refuseWith s st results).state = s := rfl

@[simp] theorem withArgs_some {α : Type} (s : State) (x : α) (f : α → Decision) : withArgs s (some x) f = f x := rfl

@[simp] theorem withArgs_none {α : Type} (s : State) (f : α → Decision) : withArgs s none f = refuse s .badArg := rfl

theorem withLane_of {s : State} {k : Nat} {n : LaneId} (h : laneOf k = some n) (f : LaneId → Decision) :
    withLane s k f = f n := by
  unfold withLane
  rw [h]

/-! ### What a decision can do -/

/-- The lanes that an act on lane `n` can touch: `n` and those that wait in a gang (R81). -/
def State.Reach (s : State) (n : LaneId) (m : LaneId) : Prop := m = n ∨ (s.lane m).seq.state = .gangWait

/-- What a decision can do to the unit. -/
inductive Decided (s : State) : State → Prop where
  | same : Decided s s
  | route (i : Nat) (e : Option RouteEntry) (hi : i < 16) (old : s.headInService (s.routeAt i) = false)
      (new : s.headInService e = false)
      (sound : ∀ x, e = some x → x.Sound s.address
        ∧ ∀ j o, j ≠ i → s.routeAt j = some o →
          routeAddress o ≠ routeAddress x ∧ sameHead x o = false ∧ sharedIsolation x o = false) :
      Decided s (s.putRoute i e)
  | lane (n : LaneId) (l : Lane) (seq : l.seq = (s.lane n).seq) : Decided s (s.putLane n l)
  | apply (n : LaneId) (atOnce : (s.lane n).appliesAtOnce = true) :
      Decided s ((s.onLane n fun l => { l with flow := { l.flow with commitPending := true } }).applyBank n)
  | mode (n : LaneId) (m : Mode) (t : State) (change : s.changeMode n m = some t) : Decided s t
  | post (n : LaneId) (o : Order) (auto : (s.lane n).seq.mode = .auto) (room : (s.queue n).length < 4)
      (fresh : o.active = false ∧ o.reserved = false) : Decided s (s.putQueue n (s.queue n ++ [o]))
  | unqueue (n : LaneId) (tag : Nat) (queued : ∀ o, s.activeOrder n = some o → o.tag ≠ tag) :
      Decided s (s.putQueue n ((s.queue n).eraseP fun o => o.tag == tag))
  | cancel (n : LaneId) (t : State) (d : Disposition) (o : Order) (active : s.activeOrder n = some o)
      (done : s.cancelActive n = some (t, d)) : Decided s t
  | clearFault (n : LaneId) (may : (s.lane n).mayClearFault = true) : Decided s (s.enterIdle n)
  | take (r : Record) (rest : List Record) (oldest : s.records = r :: rest) : Decided s { s with records := rest }
  | zeroPorts : Decided s (s.zeroCounters .ports)
  | zeroUnit : Decided s (s.zeroCounters .unit)
  | acceptRestart (src hi lo : Byte) (force : Nat) (none : s.restart = none) (running : s.anyRunning = true) :
      Decided s (s.acceptRestart src hi lo force)
  | restarted : Decided s s.restarted

theorem Decided.withArgs {s : State} {α : Type} (x : Option α) {f : α → Decision} (hf : ∀ a, x = some a → Decided s (f a).state) :
    Decided s (withArgs s x f).state := by
  cases x with
  | some a => exact hf a rfl
  | none => exact .same

theorem Decided.withLane {s : State} (k : Nat) {f : LaneId → Decision} (hf : ∀ n, Decided s (f n).state) :
    Decided s (withLane s k f).state := by
  unfold Machine.withLane
  split
  · exact hf _
  · exact .same

theorem State.mem_usedRoutes {s : State} {j : Nat} {o : RouteEntry} : (j, o) ∈ s.usedRoutes ↔ s.routeAt j = some o := by
  simp only [State.usedRoutes, State.routeAt, List.mem_filterMap, Prod.exists, List.mem_zipIdx_iff_getElem?,
    Option.map_eq_some_iff, Prod.mk.injEq]
  constructor
  · rintro ⟨x, k, h, e, rfl, rfl, rfl⟩
    rw [Vector.getElem?_toList] at h
    rw [h]
    rfl
  · intro h
    refine ⟨some o, j, ?_, o, rfl, rfl, rfl⟩
    rw [Vector.getElem?_toList]
    cases hr : s.routes[j]? with
    | none => rw [hr] at h; cases h
    | some x =>
      rw [hr] at h
      exact congrArg some h

theorem State.routeConflict_eq_none {s : State} {i : Nat} {p : RouteEntry → Bool} (h : s.routeConflict i p = none) {j : Nat}
    {o : RouteEntry} (hj : j ≠ i) (ho : s.routeAt j = some o) : p o = false := by
  unfold State.routeConflict at h
  rw [Option.map_eq_none_iff, List.find?_eq_none] at h
  have := h (j, o) (State.mem_usedRoutes.mpr ho)
  simpa [hj] using this

theorem State.routeAt_lt {s : State} {i : Nat} {e : RouteEntry} (h : s.routeAt i = some e) : i < 16 := by
  unfold State.routeAt at h
  by_contra hi
  rw [Vector.getElem?_eq_none (by omega)] at h
  cases h

theorem routeEntryOf_sound {a role own : Byte} {e : RouteEntry} (h : routeEntryOf a role = some e) (h1 : a.toNat ≠ 0)
    (h2 : ¬126 < a.toNat) (h3 : a ≠ own) : e.Sound own ∧ routeAddress e = a := by
  unfold routeEntryOf at h
  repeat' split at h
  all_goals try cases h
  · exact ⟨⟨by omega, by omega, h3⟩, rfl⟩
  · refine ⟨⟨by omega, by omega, h3, ?_⟩, rfl⟩
    have key : ∀ r : BitVec 8, ¬r.toNat < 128 → ¬(r.toNat = 128 ∨ 128 + 15 < r.toNat) →
        ((laneSetOf r).l0 || (laneSetOf r).l1 || (laneSetOf r).l2 || (laneSetOf r).l3) = true := by decide
    have := key role ‹_› ‹_›
    simp only [Bool.or_eq_true] at this
    rcases this with ((h | h) | h) | h
    · exact ⟨.lane0, h⟩
    · exact ⟨.lane1, h⟩
    · exact ⟨.lane2, h⟩
    · exact ⟨.lane3, h⟩

theorem Lane.reconcile_seq (l : Lane) (e : ReconEntry) (kg : Nat) : (l.reconcile e kg).1.seq = l.seq := by
  unfold Lane.reconcile
  dsimp only
  split <;> rfl

/-- Each owner's decision does one of the things of `Decided`. -/
theorem decision_cases {d : Asked → State → Decision} (hd : d ∈ decisions) (a : Asked) (s : State) :
    Decided s (d a s).state := by
  simp only [decisions, List.mem_cons, List.not_mem_nil, or_false] at hd
  rcases hd with rfl | rfl | rfl | rfl | rfl | rfl | rfl | rfl | rfl | rfl | rfl | rfl | rfl | rfl | rfl | rfl | rfl
    | rfl | rfl | rfl | rfl
  · exact .same
  · refine .withArgs _ fun r _ => ?_
    split
    · exact .same
    · rename_i hr
      simp only [not_or] at hr
      split
      · rename_i e he
        obtain ⟨hs, ha⟩ := routeEntryOf_sound he hr.2.1 hr.2.2.1 hr.2.2.2
        unfold State.decideRoute
        split
        · exact .same
        · rename_i hv
          simp only [Bool.or_eq_true, not_or, Bool.not_eq_true] at hv
          repeat' split
          · exact .same
          · exact .same
          · exact .same
          · rename_i h3 _ h4 _ h5
            refine .route r.index (some e) (by omega) hv.1 hv.2 fun x hx => ?_
            cases hx
            refine ⟨hs, fun j o hj ho => ⟨?_, ?_, ?_⟩⟩
            · simpa using State.routeConflict_eq_none h3 hj ho
            · exact State.routeConflict_eq_none h4 hj ho
            · exact State.routeConflict_eq_none h5 hj ho
      · exact .same
  · refine .withArgs _ fun i _ => ?_
    split
    · exact .same
    · split
      · exact .same
      · exact .route i none (by omega) (Bool.eq_false_iff.mpr ‹_›) rfl fun x hx => by cases hx
  · exact .same
  · refine .withArgs _ fun r _ => .withLane _ fun n => ?_
    repeat' split
    · exact .same
    · exact .same
    · exact .lane n _ rfl
  · refine .withArgs _ fun r _ => .withLane _ fun n => ?_
    repeat' split
    · exact .same
    · exact .same
    · exact .same
    · exact .lane n _ rfl
  · refine .withArgs _ fun r _ => .withLane _ fun n => ?_
    repeat' split
    · exact .same
    · exact .same
    · unfold State.commitLane
      dsimp only
      split
      · exact .apply n ‹_›
      · exact .lane n _ rfl
  · refine .withArgs _ fun r _ => .withLane _ fun n => ?_
    split <;> exact .same
  · refine .withArgs _ fun r _ => .withLane _ fun n => ?_
    repeat' split
    · exact .same
    · exact .same
    · exact .mode n _ _ ‹_›
    · exact .same
  · refine .withArgs _ fun r _ => .withLane _ fun n => ?_
    split
    · exact .lane n _ rfl
    · exact .same
  · refine .withArgs _ fun r _ => .withLane _ fun n => ?_
    repeat' split
    · exact .same
    · exact .same
    · exact .same
    · exact .same
    · exact .same
    · exact .post n _ (Decidable.not_not.mp ‹_›) (by omega) ⟨rfl, rfl⟩
  · refine .withArgs _ fun tag _ => ?_
    repeat' split
    · exact .same
    · rename_i n _
      unfold State.cancelIn
      repeat' split
      · exact .cancel n _ _ _ ‹_› ‹_›
      · exact .same
      · rename_i o ho ht
        exact .unqueue n tag fun o' ho' => by
          rw [ho] at ho'
          cases ho'
          exact ht
      · rename_i ho
        exact .unqueue n tag fun o' ho' => by
          rw [ho] at ho'
          cases ho'
    · exact .same
  · exact .withArgs _ fun r _ => .withLane _ fun n => .same
  · exact .withArgs _ fun r _ => .withLane _ fun n => .same
  · refine .withArgs _ fun r _ => ?_
    repeat' split
    · exact .same
    · exact .same
    · exact .same
    · exact .same
    · rename_i old rest hr _ _
      dsimp only [accept_state]
      unfold State.dropRecord
      split
      · have := Decided.take (s := s) old rest hr
        rwa [show rest = s.records.drop 1 by rw [hr]; rfl] at this
      · exact .same
  · refine .withArgs _ fun r _ => ?_
    repeat' split
    · exact .same
    · exact .same
    · exact .lane _ _ (Lane.reconcile_seq _ _ _)
    · exact .same
  · refine .withArgs _ fun r _ => .withLane _ fun n => ?_
    split
    · exact .clearFault n ‹_›
    · exact .same
  · exact .withArgs _ fun r _ => .withLane _ fun n => .lane n _ rfl
  · refine .withArgs _ fun r _ => ?_
    split
    · rename_i g _
      dsimp only [accept_state]
      split
      · cases g
        · exact .zeroPorts
        · exact .lane _ _ rfl
        · exact .zeroUnit
      · exact .same
    · exact .same
  · refine .withArgs _ fun r _ => ?_
    repeat' split
    · exact .same
    · exact .same
    · exact .same
    · rename_i h _ _
      exact .acceptRestart _ _ _ _ (by simpa using h) ‹_›
    · exact .restarted
  · exact .same

end Sys2Proof.Machine
end

