-- ==== Sys2Proof/Laws/Keeps.lean ====
section
/-! SUPPORT. Everything a command can do to the unit, said once: a property of the unit that each of these changes keeps is
kept by every command and every step. -/

namespace Sys2Proof.Machine

/-- `Inv` is kept by every part that the commands are made of. -/
structure StateOps (Inv : State → Prop) : Prop where
  power : ∀ straps q, Inv (State.powerOn straps q)
  pin : ∀ s, Inv s →
    Inv { s with held := true, up := { s.up with sending := none }, dp := { s.dp with sending := none } }
  startDelimiter : ∀ s p, Inv s → Inv (s.startDelimiter p)
  bytes : ∀ s p data, Inv s → Inv (s.putPort p ((s.port p).takeBytes data))
  lineBreak : ∀ s p, Inv s → Inv (s.lineBreak p)
  linkDown : ∀ s p, Inv s → Inv (s.linkDown p)
  endDelimiter : ∀ s p, Inv s → Inv (s.endDelimiter p)
  toSwitch : ∀ s l, Inv s → Inv { s with toSwitch := l }
  toLanes : ∀ s l, Inv s → Inv { s with toLanes := l }
  toResponder : ∀ s l, Inv s → Inv { s with toResponder := l }
  pending : ∀ s l, Inv s → Inv { s with pending := l }
  clock : ∀ s c, Inv s → Inv { s with clock := c }
  forwardUp : ∀ s f, Inv s → Inv (s.forwardUp f)
  forwardDown : ∀ s f, Inv s → Inv (s.forwardDown f)
  wrongPort : ∀ s, Inv s → Inv { s with wrongPort := bump s.wrongPort }
  formError : ∀ s n, s.transparent = false → Inv s →
    Inv (s.onLane n fun l => { l with counters := { l.counters with formErrors := bump l.counters.formErrors } })
  block : ∀ s n, s.transparent = false → (s.lane n).seq.mode = .auto → Inv s → Inv (s.blockFrame n)
  cutOff : ∀ s n c, s.transparent = false → (s.lane n).pouring = true → Inv s → Inv (s.cutOff n c)
  takeSample : ∀ s n m, s.transparent = false → Inv s → Inv (s.takeSample n m)
  resume : ∀ s n, s.transparent = false → Inv s → Inv (s.onLane n fun l => { l with resumeMark := false })
  silenceExpiry : ∀ s n, Inv s → Inv (s.silenceExpiry n)
  openExpiry : ∀ s n, Inv s → Inv (s.openExpiry n)
  closeExpiry : ∀ s n, Inv s → Inv (s.closeExpiry n)
  fallExpiry : ∀ s n, Inv s → Inv (s.fallExpiry n)
  settleExpiry : ∀ s n, Inv s → Inv (s.settleExpiry n)
  gangExpiry : ∀ s n, Inv s → Inv (s.gangExpiry n)
  boundExpiry : ∀ s, Inv s → Inv s.boundExpiry
  selectDp : ∀ s, Inv s → Inv s.selectDp
  selectUp : ∀ s, Inv s → Inv s.selectUp
  endUp : ∀ s, Inv s → Inv s.transmitEndUp
  endDp : ∀ s, Inv s → Inv s.transmitEndDp
  discard : ∀ s, s.transparent = false → Inv s → Inv s.discardRequest
  controller : ∀ s c, s.transparent = false → Inv s → Inv { s with controller := c }
  decided : ∀ s t, s.transparent = false → Decided s t → Inv s → Inv t
  reply : ∀ s dest payload, s.transparent = false → s.up.replies.length < 4 → Inv s → Inv (s.replying dest payload)

theorem State.onlyLanes_closeForRestart {P : LaneId → Prop} (s : State) {n : LaneId} (hn : P n) :
    s.OnlyLanes P (s.closeForRestart n) := by
  unfold State.closeForRestart
  split
  · exact (s.onlyLanes_placeHeadClose hn).trans (State.onlyLanes_placeIsolationClose _ hn)
  · exact .refl P s

theorem State.onlyLanes_closeForRestarts {P : LaneId → Prop} (hP : ∀ n, P n) (s : State) :
    s.OnlyLanes P (allLanes.foldl State.closeForRestart s) :=
  (((s.onlyLanes_closeForRestart (hP .lane0)).trans (State.onlyLanes_closeForRestart _ (hP .lane1))).trans
    (State.onlyLanes_closeForRestart _ (hP .lane2))).trans (State.onlyLanes_closeForRestart _ (hP .lane3))

/-- A decision leaves the straps, and the reply queue as it was or empty. -/
theorem Decided.straps_replies {s t : State} (h : Decided s t) :
    t.straps = s.straps ∧ (t.up.replies = s.up.replies ∨ t.up.replies = []) := by
  have only : s.OnlyLanes (fun _ => True) t → t.straps = s.straps ∧ (t.up.replies = s.up.replies ∨ t.up.replies = []) :=
    fun h => ⟨h.straps, .inl (by rw [h.up])⟩
  cases h
  case apply n h => exact only ((s.onlyLanes_onLane (n := n) trivial _).trans (State.onlyLanes_applyBank _ (n := n) trivial))
  case mode n m h => exact only (State.onlyLanes_changeMode s t (n := n) trivial (fun _ _ => trivial) m h)
  case cancel n o d a h => exact only (State.onlyLanes_cancelActive s (n := n) trivial (fun _ _ => trivial) h)
  case clearFault n _ => exact only (State.onlyLanes_enterIdle s (n := n) trivial fun _ _ _ _ _ _ => trivial)
  case acceptRestart =>
    have h := State.onlyLanes_closeForRestarts (P := fun _ => True) (fun _ => trivial) s
    unfold State.acceptRestart
    generalize allLanes.foldl State.closeForRestart s = u at h ⊢
    exact ⟨h.straps, .inl (show u.up.replies = s.up.replies by rw [h.up])⟩
  case restarted => exact ⟨rfl, .inr rfl⟩
  all_goals exact ⟨rfl, .inl rfl⟩

theorem transparent_congr {s t : State} (h : t.straps = s.straps) : t.transparent = s.transparent := by
  simp only [State.transparent, h]

/-- A request keeps what its parts keep. -/
theorem StateOps.respond {Inv : State → Prop} (P : StateOps Inv) {s : State} (h : Inv s) (kind src : Byte)
    (body : List Byte) : Inv (s.respond kind src body (decisionOf kind)) := by
  have decide : ∀ v : State, Inv v → v.transparent = false → v.up.replies.length < 4 → ∀ a : Asked,
      Inv ((decisionOf kind a v).deliver kind a) := by
    intro v hv ht h4 a
    have hd := decision_cases (decisionOf_mem kind) a v
    have h1 := P.decided v _ ht hd hv
    obtain ⟨hs, hr⟩ := hd.straps_replies
    unfold Decision.deliver
    split
    · refine P.reply _ _ _ ((transparent_congr hs).trans ht) ?_ h1
      rcases hr with e | e <;> rw [e]
      · exact h4
      · decide
    · exact h1
  have answer : ∀ v : State, Inv v → v.transparent = false →
      Inv (if 4 ≤ v.up.replies.length then v.discardRequest else v.answer kind src body (decisionOf kind)) := by
    intro v hv ht
    split
    · exact P.discard v ht hv
    · rename_i h4
      have hc := P.controller v src ht hv
      unfold State.answer
      dsimp only
      split
      · exact decide _ hc ht (by simpa using h4) _
      · exact P.reply _ _ _ ht (by simpa using h4) hc
      · exact P.reply _ _ _ ht (by simpa using h4) hc
  unfold State.respond
  split
  · exact h
  · rename_i ht
    exact answer _ (P.toResponder s _ h)
      (Bool.eq_false_iff.mpr fun e => ht (by rw [show s.transparent = true from e]; rfl))

/-- A request given by its whole payload keeps what its parts keep. -/
theorem StateOps.respondPayload {Inv : State → Prop} (P : StateOps Inv) {s : State} (h : Inv s) (src : Byte)
    (payload : List Byte) : Inv (s.respondPayload src payload) := by
  cases payload with
  | cons kind body => exact P.respond h kind src body
  | nil =>
    have answer : ∀ v : State, Inv v → v.transparent = false →
        Inv (if 4 ≤ v.up.replies.length then v.discardRequest
          else ({ v with controller := src }).queueReply src 0 0 0 .badArg []) := by
      intro v hv ht
      split
      · exact P.discard v ht hv
      · rename_i h4
        exact P.reply _ _ _ ht (by simpa using h4) (P.controller v src ht hv)
    show Inv (if s.transparent || !inTurn s.toResponder (src, []) then s else _)
    split
    · exact h
    · rename_i ht
      exact answer _ (P.toResponder s (s.toResponder.erase (src, [])) h)
        (Bool.eq_false_iff.mpr fun e => ht (by rw [show s.transparent = true from e]; rfl))

/-- `Inv` is kept by every change to lanes and record store, and by the other parts that the commands are made of. -/
structure StoreOps (Inv : State → Prop) : Prop where
  only : ∀ s t, s.OnlyLanes (fun _ => True) t → Inv s → Inv t
  clock : ∀ s c, Inv s → Inv { s with clock := c }
  lists : ∀ s a b c d, Inv s → Inv { s with toSwitch := a, toLanes := b, toResponder := c, pending := d }
  power : ∀ straps q, Inv (State.powerOn straps q)
  pin : ∀ s, Inv s →
    Inv { s with held := true, up := { s.up with sending := none }, dp := { s.dp with sending := none } }
  startDelimiter : ∀ s p, Inv s → Inv (s.startDelimiter p)
  bytes : ∀ s p data, Inv s → Inv (s.putPort p ((s.port p).takeBytes data))
  lineBreak : ∀ s p, Inv s → Inv (s.lineBreak p)
  linkDown : ∀ s p, Inv s → Inv (s.linkDown p)
  endDelimiter : ∀ s p, Inv s → Inv (s.endDelimiter p)
  forwardUp : ∀ s f, Inv s → Inv (s.forwardUp f)
  forwardDown : ∀ s f, Inv s → Inv (s.forwardDown f)
  wrongPort : ∀ s, Inv s → Inv { s with wrongPort := bump s.wrongPort }
  discard : ∀ s, Inv s → Inv s.discardRequest
  controller : ∀ s c, Inv s → Inv { s with controller := c }
  reply : ∀ s dest payload, s.up.replies.length < 4 → Inv s → Inv (s.replying dest payload)
  restarted : ∀ s, Inv s → Inv s.restarted
  restartReply : ∀ s dest payload, Inv s → Inv (s.restarted.replying dest payload)
  selectDp : ∀ s, Inv s → Inv s.selectDp
  selectUp : ∀ s, Inv s → Inv s.selectUp
  endUp : ∀ s, Inv s → Inv s.transmitEndUp
  sent : ∀ s, Inv s → Inv { s with dp := { s.dp with
    sending := none, urgent := s.dp.urgent.filter fun e => !e.sending } }
  route : ∀ s i e, i < 16 → s.headInService (s.routeAt i) = false → s.headInService e = false →
    (∀ x, e = some x → x.Sound s.address ∧ ∀ j o, j ≠ i → s.routeAt j = some o →
      routeAddress o ≠ routeAddress x ∧ sameHead x o = false ∧ sharedIsolation x o = false) →
    Inv s → Inv (s.putRoute i e)
  post : ∀ s n o, (s.queue n).length < 4 → Inv s → Inv (s.putQueue n (s.queue n ++ [o]))
  zeroPorts : ∀ s, Inv s → Inv (s.zeroCounters .ports)
  zeroUnit : ∀ s, Inv s → Inv (s.zeroCounters .unit)
  accept : ∀ s r, s.restart = none → Inv s →
    Inv { s.clearNotes with dp := { s.dp with slots := PerLane.all none }, restart := some r }

theorem StoreOps.onLane {Inv : State → Prop} (P : StoreOps Inv) {s : State} (h : Inv s) (n : LaneId) (f : Lane → Lane) :
    Inv (s.onLane n f) :=
  P.only s _ (s.onlyLanes_onLane (n := n) trivial f) h

theorem StoreOps.atExpiry {Inv : State → Prop} (P : StoreOps Inv) {s : State} (h : Inv s) (t : Timer) :
    Inv (s.atExpiry t) := by
  unfold State.atExpiry
  split
  · exact P.clock s _ h
  · exact h

/-- The reaction to a silence expiry touches its lane. -/
theorem State.onlyLanes_silenceReaction {P : LaneId → Prop} (s : State) {n : LaneId} (hn : P n) :
    s.OnlyLanes P (s.silenceReaction n) := by
  unfold State.silenceReaction
  repeat' split
  · exact .refl P s
  · exact .refl P s
  · exact .refl P s
  · exact .refl P s
  · exact s.onlyLanes_setHold hn _
  · exact s.onlyLanes_dropOut hn _
  · exact s.onlyLanes_faultClosingAll hn _
  · exact s.onlyLanes_faultClosingAll hn _
  · exact s.onlyLanes_faultClosingAll hn _
  · exact s.onlyLanes_enterFault hn _
  · exact s.onlyLanes_enterFault hn _

/-- A property kept by every change to lanes and record store needs no look at what the lane operations do. -/
theorem StoreOps.toStateOps {Inv : State → Prop} (P : StoreOps Inv) : StateOps Inv where
  power := P.power
  pin := P.pin
  startDelimiter := P.startDelimiter
  bytes := P.bytes
  lineBreak := P.lineBreak
  linkDown := P.linkDown
  endDelimiter := P.endDelimiter
  toSwitch s l h := P.lists s l s.toLanes s.toResponder s.pending h
  toLanes s l h := P.lists s s.toSwitch l s.toResponder s.pending h
  toResponder s l h := P.lists s s.toSwitch s.toLanes l s.pending h
  pending s l h := P.lists s s.toSwitch s.toLanes s.toResponder l h
  clock := P.clock
  forwardUp := P.forwardUp
  forwardDown := P.forwardDown
  wrongPort := P.wrongPort
  formError s n _ h := P.onLane h n _
  block s n _ _ h := P.only s _ ((s.onlyLanes_onLane (n := n) trivial _).trans (State.onlyLanes_raiseNote _ (n := n) trivial)) h
  cutOff s n c _ _ h := P.only s _ (s.onlyLanes_cutOff (n := n) trivial c) h
  takeSample s n m _ h := P.only s _ (s.onlyLanes_takeSample (n := n) trivial (fun _ _ => trivial) m) h
  resume s n _ h := P.onLane h n _
  silenceExpiry s n h := by
    unfold State.silenceExpiry
    split
    · exact P.only _ _ (((State.onlyLanes_onLane _ (n := n) trivial _).trans
        (State.onlyLanes_raiseNote _ (n := n) trivial)).trans
        (State.onlyLanes_silenceReaction _ (n := n) trivial)) (P.atExpiry h _)
    · exact h
  openExpiry s n h := by
    have h1 := fun t f => P.onLane (P.atExpiry h t) n f
    unfold State.openExpiry
    split
    · dsimp only
      repeat' split
      · exact P.only _ _ ((State.onlyLanes_onLane _ (n := n) trivial _).trans
          (State.onlyLanes_placePosition _ (n := n) trivial _)) (h1 _ _)
      · exact P.onLane (h1 _ _) n _
      · exact P.only _ _ ((State.onlyLanes_placeHeadClose _ (n := n) trivial).trans
          (State.onlyLanes_enterFault _ (n := n) trivial _)) (h1 _ _)
      · exact h1 _ _
    · exact h
  closeExpiry s n h := by
    have h1 := fun t f => P.onLane (P.atExpiry h t) n f
    unfold State.closeExpiry
    split
    · dsimp only
      repeat' split
      · exact P.only _ _ ((State.onlyLanes_placeHeadClose _ (n := n) trivial).trans
          (State.onlyLanes_onLane _ (n := n) trivial _)) (h1 _ _)
      · exact P.only _ _ ((State.onlyLanes_placeIsolationClose _ (n := n) trivial).trans
          (State.onlyLanes_enterFault _ (n := n) trivial _)) (h1 _ _)
      · exact h1 _ _
    · exact h
  fallExpiry s n h := by
    unfold State.fallExpiry
    split
    · exact P.onLane (P.atExpiry h _) n _
    · exact h
  settleExpiry s n h := by
    have h1 := fun t f => P.onLane (P.atExpiry h t) n f
    unfold State.settleExpiry
    split
    · dsimp only
      split
      · exact P.only _ _ (State.onlyLanes_endSettling _ (n := n) trivial fun _ _ _ _ _ _ => trivial) (h1 _ _)
      · exact h1 _ _
    · exact h
  gangExpiry s n h := by
    have h1 := fun t f => P.onLane (P.atExpiry h t) n f
    unfold State.gangExpiry
    split
    · dsimp only
      split
      · exact P.only _ _ (State.onlyLanes_endOrder _ (n := n) trivial (fun _ _ _ _ _ _ => trivial) _) (h1 _ _)
      · exact h1 _ _
    · exact h
  boundExpiry s h := by
    unfold State.boundExpiry
    split
    · exact P.restartReply _ _ _ (P.atExpiry h _)
    · exact h
  selectDp := P.selectDp
  selectUp := P.selectUp
  endUp := P.endUp
  endDp s h := by
    rcases s.transmitEndDp_cases with ⟨_, e⟩ | ⟨_, _, e⟩ | ⟨_, _, _, _, _, _, e⟩ <;> rw [e]
    · exact h
    · exact P.sent s h
    · exact P.restartReply _ _ _ (P.sent s h)
  discard s _ h := P.discard s h
  controller s c _ h := P.controller s c h
  decided s t _ hd h := by
    cases hd
    case same => exact h
    case route i e hi old new sound => exact P.route s i e hi old new sound h
    case lane n l _ => exact P.only s _ (s.onlyLanes_putLane (n := n) trivial l) h
    case apply n _ => exact P.only _ _ (State.onlyLanes_applyBank _ (n := n) trivial) (P.onLane h n _)
    case mode n m hm => exact P.only s _ (State.onlyLanes_changeMode s t (n := n) trivial (fun _ _ => trivial) m hm) h
    case post n o _ room _ => exact P.post s n o room h
    case unqueue n tag _ => exact P.only s _ (s.onlyLanes_putQueue (n := n) trivial _ List.length_eraseP_le) h
    case cancel n d o _ hc => exact P.only s _ (s.onlyLanes_cancelActive (n := n) trivial (fun _ _ => trivial) hc) h
    case clearFault n _ => exact P.only s _ (s.onlyLanes_enterIdle (n := n) trivial fun _ _ _ _ _ _ => trivial) h
    case take r rest _ => exact P.only s _ (s.onlyLanes_store _ rest s.reservations) h
    case zeroPorts => exact P.zeroPorts s h
    case zeroUnit => exact P.zeroUnit s h
    case acceptRestart src hi lo force none _ =>
      have h1 := State.onlyLanes_closeForRestarts (P := fun _ => True) (fun _ => trivial) s
      unfold State.acceptRestart
      generalize allLanes.foldl State.closeForRestart s = u at h1 ⊢
      exact P.accept u _ (h1.restart.trans none) (P.only s u h1 h)
    case restarted => exact P.restarted s h
  reply s dest payload _ h4 h := P.reply s dest payload h4 h

/-- What `StateOps` keeps, every command keeps. -/
theorem exec_keeps {Inv : State → Prop} (P : StateOps Inv) {s t : State} (c : Instr) (h : Inv s)
    (he : exec c s = .next t) : Inv t := by
  have running : ∀ f : State → State, Inv (f s) → Inv (s.whileRunning f) := by
    intro f hf
    unfold State.whileRunning
    split
    · exact h
    · exact hf
  cases c <;> injection he with he <;> subst he
  case powerOn => exact P.power _ _
  case resetPinAssert => exact P.pin _ h
  case resetPinRelease => exact P.power _ _
  case startDelimiter p => exact running _ (P.startDelimiter _ p h)
  case overlongFrame p data => exact running _ (P.bytes _ p _ h)
  case lineBreak p => exact running _ (P.lineBreak _ p h)
  case linkDown p => exact running _ (P.linkDown _ p h)
  case frameEnd p data => exact running _ (P.endDelimiter _ p (P.bytes _ p _ h))
  case frameClassify p f =>
    refine running _ ?_
    split
    case isFalse => exact h
    have h1 := P.toSwitch s (s.toSwitch.erase (p, f)) h
    generalize ({ s with toSwitch := s.toSwitch.erase (p, f) } : State) = u at h1 ⊢
    cases p with
    | up =>
      show Inv (if u.transparent then u.forwardDown f else u.classifyUp f)
      split
      · exact P.forwardDown _ f h1
      · rename_i ht
        have ht : u.transparent = false := by simpa using ht
        unfold State.classifyUp State.screen
        repeat' split
        · exact P.toResponder _ _ h1
        · exact h1
        · dsimp only; repeat' split
          · exact P.forwardDown _ f (P.cutOff _ _ _ ht ‹_› h1)
          · exact P.forwardDown _ f h1
          · exact P.block _ _ ht ‹_› h1
          · exact P.forwardDown _ f h1
        · exact P.forwardDown _ f h1
        · exact P.forwardDown _ f h1
    | dp =>
      show Inv (if u.transparent then u.forwardUp f else u.classifyDp f)
      split
      · exact P.forwardUp _ f h1
      · rename_i ht
        have ht : u.transparent = false := by simpa using ht
        unfold State.classifyDp State.malformed
        repeat' split
        · exact P.toLanes _ _ h1
        · exact P.forwardUp _ f (P.formError _ _ ht h1)
        · exact P.wrongPort _ h1
        · exact h1
        · exact P.forwardUp _ f h1
  case sample n f =>
    refine running _ ?_
    split
    case isFalse => exact h
    have h1 := P.toLanes s (s.toLanes.erase (n, f)) h
    generalize ({ s with toLanes := s.toLanes.erase (n, f) } : State) = u at h1 ⊢
    unfold State.handleMeasurement State.malformed
    split
    · exact h1
    · rename_i ht
      have ht : u.transparent = false := by simpa using ht
      split
      · rename_i m hm
        have h2 := P.takeSample u n m ht h1
        have h3 : (u.takeSample n m).straps = u.straps := (State.onlyLanes_takeSample (P := fun _ => True) u (n := n) trivial (fun _ _ => trivial) m).straps
        exact P.forwardUp _ _ (P.resume _ _ (by unfold State.transparent at *; rw [h3]; exact ht) h2)
      · exact P.forwardUp _ f (P.formError _ _ ht h1)
  case silenceExpiry n => exact running _ (P.silenceExpiry _ n h)
  case openTimerExpiry n => exact running _ (P.openExpiry _ n h)
  case closeTimerExpiry n => exact running _ (P.closeExpiry _ n h)
  case fallTimerExpiry n => exact running _ (P.fallExpiry _ n h)
  case settleTimerExpiry n => exact running _ (P.settleExpiry _ n h)
  case gangTimerExpiry n => exact running _ (P.gangExpiry _ n h)
  case restartBoundExpiry => exact running _ (P.boundExpiry _ h)
  case dpSelection => exact running _ (P.selectDp _ h)
  case upSelection => exact running _ (P.selectUp _ h)
  case transmitEnd p => cases p <;> [exact running _ (P.endUp _ h); exact running _ (P.endDp _ h)]
  case unknownRequest src payload => exact running _ (P.respondPayload h src payload)
  all_goals exact running _ (P.respond h _ _ _)

/-- What `StateOps` keeps, every step keeps. -/
theorem step_keeps {Inv : State → Prop} (P : StateOps Inv) {s t : State} (h : Inv s) (he : step s = .next t) : Inv t := by
  unfold step at he
  split at he
  · rename_i c rest _
    exact exec_keeps P c (P.pending s rest h) he
  · injection he with he
    subst he
    unfold State.tick
    split
    · exact h
    · exact P.clock _ _ h

end Sys2Proof.Machine
end

