-- ==== Sys2Proof/Laws/Words.lean ====
section
/-! SUPPORT. Each shared operation of the sequencer in the words of the statements (Safety.lean): one lemma per operation
that says everything it does. -/

namespace Sys2Proof.Machine

/-! ### Closes -/

theorem urgentHolds_iff {q : List UrgentEntry} {n : LaneId} {k : UrgentKind} :
    urgentHolds q n k = true ↔ ∃ e ∈ q, e.lane = n ∧ e.kind = k := by
  simp [urgentHolds]

/-- CLOSE for the head adds what `closing` says. -/
theorem State.placeHeadClose_eq (s : State) (n : LaneId) :
    s.placeHeadClose n = { s with dp := { s.dp with urgent := s.dp.urgent ++ s.closing n .headClose } } := by
  unfold State.placeHeadClose State.placeUrgent State.closing
  simp only [if_true, urgentHolds_iff]
  cases s.headOf n with
  | none => simp
  | some a => dsimp only; split <;> simp

/-- CLOSE for the isolation station adds what `closing` says. -/
theorem State.placeIsolationClose_eq (s : State) (n : LaneId) :
    s.placeIsolationClose n = { s with dp := { s.dp with urgent := s.dp.urgent ++ s.closing n .isolationClose } } := by
  unfold State.placeIsolationClose State.placeUrgent State.closing
  simp only [urgentHolds_iff, show ¬UrgentKind.isolationClose = .headClose by decide, if_false]
  cases s.isolationOf n with
  | none => simp
  | some a => dsimp only; split <;> simp

/-- What a close adds concerns its lane and kind alone. -/
theorem State.mem_closing {s : State} {n : LaneId} {k : UrgentKind} {e : UrgentEntry} (h : e ∈ s.closing n k) :
    e.lane = n ∧ e.kind = k := by
  unfold State.closing at h
  split at h
  · split at h
    · cases h
    · rw [List.mem_singleton] at h
      subst h
      exact ⟨rfl, rfl⟩
  · cases h

/-- A close adds the same behind entries of other lanes and kinds. -/
theorem State.closing_congr {s t : State} {n : LaneId} {k : UrgentKind} (hr : t.routes = s.routes)
    (hu : (∃ e ∈ t.dp.urgent, e.lane = n ∧ e.kind = k) ↔ ∃ e ∈ s.dp.urgent, e.lane = n ∧ e.kind = k) :
    t.closing n k = s.closing n k := by
  unfold State.closing State.headOf State.isolationOf
  simp only [hr, hu]

theorem State.closing_append {s t : State} {n m : LaneId} {k j : UrgentKind} (hr : t.routes = s.routes)
    (hu : t.dp.urgent = s.dp.urgent ++ s.closing m j) (h : ¬(n = m ∧ k = j)) : t.closing n k = s.closing n k := by
  refine State.closing_congr hr ?_
  rw [hu]
  constructor
  · rintro ⟨e, he, h1, h2⟩
    rcases List.mem_append.mp he with he | he
    · exact ⟨e, he, h1, h2⟩
    · have := State.mem_closing he
      exact absurd ⟨h1.symm.trans this.1, h2.symm.trans this.2⟩ h
  · rintro ⟨e, he, h1⟩
    exact ⟨e, List.mem_append_left _ he, h1⟩

/-- Both closes of a lane. -/
theorem State.placeBoth_eq (s : State) (n : LaneId) :
    (s.placeHeadClose n).placeIsolationClose n = { s with dp := { s.dp with
      urgent := s.dp.urgent ++ (s.closing n .headClose ++ s.closing n .isolationClose) } } := by
  rw [State.placeIsolationClose_eq, State.placeHeadClose_eq]
  have h := State.closing_append (s := s) (n := n) (k := .isolationClose) (m := n) (j := .headClose)
    (t := { s with dp := { s.dp with urgent := s.dp.urgent ++ s.closing n .headClose } }) rfl rfl (fun h => nomatch h.2)
  rw [h]
  simp

theorem State.closesPlaced_one (s : State) (n : LaneId) (k : UrgentKind) :
    s.ClosesPlaced [(n, k)] (s.dp.urgent ++ s.closing n k) := ⟨_, rfl, by simp⟩

theorem State.closesPlaced_both (s : State) (n : LaneId) :
    s.ClosesPlaced [(n, .headClose), (n, .isolationClose)]
      (s.dp.urgent ++ (s.closing n .headClose ++ s.closing n .isolationClose)) := ⟨_, rfl, by simp⟩

theorem State.closesPlaced_none (s : State) : s.ClosesPlaced [] s.dp.urgent := ⟨[], by simp, by simp⟩

theorem State.ClosesPlaced.congr {s t : State} {closes : List (LaneId × UrgentKind)} {urgent : List UrgentEntry}
    (h : s.ClosesPlaced closes urgent) (hr : t.routes = s.routes) (hu : t.dp.urgent = s.dp.urgent) :
    t.ClosesPlaced closes urgent := by
  obtain ⟨added, h1, h2⟩ := h
  refine ⟨added, by rw [hu]; exact h1, ?_⟩
  have : (fun c : LaneId × UrgentKind => t.closing c.1 c.2) = fun c => s.closing c.1 c.2 :=
    funext fun c => State.closing_congr hr (by rw [hu])
  rw [this]
  exact h2

/-! ### Cut-off, commands and FAULT -/

/-- A cut-off is R102's. -/
theorem State.cutOff_eq (s : State) (n : LaneId) (cause : CutCause) :
    s.cutOff n cause = s.cutTo n cause (s.dp.urgent ++ s.closing n .headClose) := by
  unfold State.cutOff
  rw [State.placeHeadClose_eq]
  simp [State.withdrawPosition, State.enterState, State.onLane, State.putLane, State.lane, State.raiseNote, Lane.onSeq,
    State.cutTo, State.moved, Lane.cutoffNow, State.startTimer, Lane.params]

/-- A POSITION command placed leaves in the slot what `slotAfter` says. -/
theorem State.placePosition_eq (s : State) (n : LaneId) (position : Nat) :
    s.placePosition n position = { s with dp := { s.dp with slots := s.dp.slots.set n (s.slotAfter n position) } } := by
  unfold State.placePosition State.slotAfter
  cases hr : s.restart <;> cases s.headOf n <;> simp <;> rw [← hr]

/-- The wanted position set and placed. -/
theorem State.commanding_eq (s : State) (n : LaneId) (position : Nat) :
    (s.onLane n fun l => l.onSeq fun q => { q with wanted := some position }).placePosition n position =
      s.commanding n position := by
  rw [State.placePosition_eq]
  simp [State.onLane, State.putLane, State.lane, Lane.onSeq, State.commanding]
  rfl

theorem State.setHold_eq (s : State) (n : LaneId) (h : HoldCause) : s.setHold n h = s.holding n h := rfl

/-- An entry to FAULT that ends an active order is R110's. -/
theorem State.enterFault_eq {s : State} {n : LaneId} {o : Order} (cause : FaultCause) (h : s.activeOrder n = some o) :
    s.enterFault n cause =
      s.faulted n o cause ((s.lane n).faultResult o.targetKg).toList s.dp.urgent := by
  obtain ⟨hq, ha⟩ := State.queue_of_activeOrder h
  generalize (s.queue n).drop 1 = rest at hq
  have hq' : s.orders.get n = o :: rest := hq
  have h' : (s.withdrawPosition n).activeOrder n = some o := h
  unfold State.enterFault
  simp only [h']
  have hl : (s.withdrawPosition n).lane n = s.lane n := rfl
  rw [hl]
  cases (s.lane n).faultResult o.targetKg with
  | none =>
    simp [State.queue, hq', State.putQueue, State.onLane, State.putLane, State.lane, Lane.onSeq, State.enterState,
      State.raiseNote, State.withdrawPosition, State.endWithRecord, ha, State.faulted, State.moved, State.ended, recordOf]
  | some r =>
    simp [State.closeCompartment, State.onHead, State.queue, hq', State.putQueue, State.onLane, State.putLane, State.lane, Lane.onSeq,
      State.enterState, State.raiseNote, State.withdrawPosition, State.endWithRecord, ha, State.faulted, State.moved, State.ended, recordOf]

/-- An entry to FAULT with both closes is R110's with the entries of R114. -/
theorem State.faultClosingAll_eq {s : State} {n : LaneId} {o : Order} (cause : FaultCause) (h : s.activeOrder n = some o) :
    s.faultClosingAll n cause = s.faulted n o cause ((s.lane n).faultResult o.targetKg).toList
      (s.dp.urgent ++ (s.closing n .headClose ++ s.closing n .isolationClose)) := by
  unfold State.faultClosingAll
  rw [State.placeBoth_eq]
  exact State.enterFault_eq (s := { s with dp := { s.dp with
    urgent := s.dp.urgent ++ (s.closing n .headClose ++ s.closing n .isolationClose) } }) cause h

/-- The time at an expiry is `timeAt`'s. -/
theorem State.atExpiry_eq (s : State) (timer : Timer) : s.atExpiry timer = { s with clock := s.timeAt timer } := by
  unfold State.atExpiry State.timeAt
  by_cases h : (s.clock - timer.start).toNat < timer.duration
  · rw [if_pos h, if_neg (by omega)]
  · rw [if_neg h, if_pos (by omega)]

/-! ### Preconditions and drop-out -/

/-- The preconditions 1 to 5 hold when none fails, and otherwise the first that fails is the hold cause. -/
theorem Lane.precondition_cases (l : Lane) :
    (l.precondition = .none ∧ l.failing = []) ∨ ∃ h rest, h ≠ .none ∧ l.precondition = h ∧ l.failing = h :: rest := by
  unfold Lane.precondition Lane.failing
  have key : ∀ (a b c d g : Bool),
      ((if a then HoldCause.headSilent else if b then .headFault else if !c then .noVehicle
        else if d then .probeActive else if g then .none else .gateOpen) = .none
        ∧ (if a then [HoldCause.headSilent] else []) ++ (if b then [.headFault] else []) ++ (if c then [] else [.noVehicle])
          ++ (if d then [.probeActive] else []) ++ (if g then [] else [.gateOpen]) = [])
      ∨ ∃ h rest, h ≠ .none ∧ (if a then HoldCause.headSilent else if b then .headFault else if !c then .noVehicle
        else if d then .probeActive else if g then .none else .gateOpen) = h
        ∧ (if a then [HoldCause.headSilent] else []) ++ (if b then [.headFault] else []) ++ (if c then [] else [.noVehicle])
          ++ (if d then [.probeActive] else []) ++ (if g then [] else [.gateOpen]) = h :: rest := by
    intro a b c d g
    cases a <;> cases b <;> cases c <;> cases d <;> cases g <;> simp
  have h := key l.seq.silentMark (l.cond.lastFlags.any HeadFlags.headFault)
    (l.cond.lastFlags.any HeadFlags.bellowsDown && l.seq.liftMark) (l.cond.lastFlags.any HeadFlags.levelProbe)
    (l.cond.lastGate.any fun g => g ≤ l.params.closedBand)
  cases hf : l.cond.lastFlags <;> cases hg : l.cond.lastGate <;> simp [hf, hg] at h ⊢ <;> exact h

/-- A drop-out is R82's. -/
theorem State.dropOut_eq {s : State} {n : LaneId} {o : Order} (h : s.activeOrder n = some o) (cause : HoldCause) :
    s.dropOut n cause = s.droppedOut n o cause := by
  obtain ⟨hq, ha⟩ := State.queue_of_activeOrder h
  generalize (s.queue n).drop 1 = rest at hq
  have hq' : s.orders.get n = o :: rest := hq
  unfold State.dropOut State.returnReservation
  simp only [h]
  cases hr : o.reserved with
  | true =>
    simp [State.onHead, State.queue, hq', State.putQueue, State.onLane, State.putLane, State.lane, Lane.onSeq,
      State.enterState, State.raiseNote, State.droppedOut, State.moved, State.withHead, hr]
  | false =>
    have hset : s.orders.set n ({ o with reserved := false } :: rest) = s.orders := by
      rw [← hr, ← hq']
      exact PerLane.set_get_self _ _
    simp [State.queue, hq', State.onLane, State.putLane, State.lane, Lane.onSeq, State.enterState, State.raiseNote,
      State.droppedOut, State.moved, State.withHead, hr]
    exact hset.symm

/-! ### Entry to FILLING and gangs -/

/-- An entry to FILLING is R97's. -/
theorem State.enterFilling_eq {s : State} {n : LaneId} {o : Order} (k : Nat) (h : s.activeOrder n = some o) :
    s.enterFilling n k = { s with
      lanes := s.lanes.set n ((s.lane n).opened s.clock o k)
      orders := s.orders.set n ({ o with compartment := k } :: (s.queue n).drop 1)
      up := { s.up with laneNotes := s.up.laneNotes.set n true }
      dp := { s.dp with slots := s.dp.slots.set n (s.slotAfter n ((s.lane n).opensAt o k).1) } } := by
  obtain ⟨hq, ha⟩ := State.queue_of_activeOrder h
  have hd : (s.lane n).opening o (o.targets.getD (k - 1) 0) = (s.lane n).opensAt o k := by
    unfold Lane.opening Lane.opensAt trickleThreshold
    cases o.noTrickle <;> simp [Nat.sub_eq_zero_iff_le]
  unfold State.enterFilling
  simp only [h, hd]
  rw [State.placePosition_eq]
  generalize (s.queue n).drop 1 = rest at hq
  have hq' : s.orders.get n = o :: rest := hq
  simp [State.onHead, State.queue, hq', State.putQueue, State.onLane, State.putLane, State.lane,
    State.raiseNote, Lane.enterFilling, Lane.opened]
  rfl

/-- An entry of one lane to FILLING touches that lane alone. -/
theorem State.enterFilling_opens {s : State} {n : LaneId} {o : Order} (k : Nat) (h : s.activeOrder n = some o) :
    s.Opens (s.enterFilling n k) [n] k where
  opened m hm p hp := by
    rw [List.mem_singleton] at hm
    subst hm
    rw [h] at hp
    cases hp
    rw [State.enterFilling_eq k h]
    exact ⟨PerLane.get_set_self _ _ _, PerLane.get_set_self _ _ _, PerLane.get_set_self _ _ _, PerLane.get_set_self _ _ _⟩
  others m hm := by
    rw [List.mem_singleton] at hm
    rw [State.enterFilling_eq k h]
    exact ⟨PerLane.get_set_of_ne _ _ hm, PerLane.get_set_of_ne _ _ hm, PerLane.get_set_of_ne _ _ hm,
      PerLane.get_set_of_ne _ _ hm⟩
  rest := by rw [State.enterFilling_eq k h]

theorem State.Opens.nil (s : State) (k : Nat) : s.Opens s [] k :=
  ⟨fun _ h => absurd h List.not_mem_nil, fun _ _ => ⟨rfl, rfl, rfl, rfl⟩, rfl⟩

/-- What an entry of other lanes to FILLING leaves of a lane. -/
theorem State.Opens.activeOrder {s t : State} {members : List LaneId} {k : Nat} (h : s.Opens t members k) {n : LaneId}
    (hn : n ∉ members) : t.activeOrder n = s.activeOrder n := by
  unfold State.activeOrder
  rw [(h.others n hn).2.1]

/-- One more lane enters FILLING. -/
theorem State.Opens.cons {s t u : State} {n : LaneId} {members : List LaneId} {k : Nat} (h : s.Opens t [n] k)
    (hn : n ∉ members) (g : t.Opens u members k) : s.Opens u (n :: members) k where
  opened m hm o ho := by
    rcases List.mem_cons.mp hm with rfl | hm
    · have h1 := h.opened m (List.mem_singleton_self m) o ho
      have h2 := g.others m hn
      exact ⟨h2.1.trans h1.1, h2.2.1.trans h1.2.1, h2.2.2.1.trans h1.2.2.1, h2.2.2.2.trans h1.2.2.2⟩
    · have hm' : m ∉ [n] := by
        rw [List.mem_singleton]
        intro e
        exact hn (e ▸ hm)
      have h1 := h.others m hm'
      have h2 := g.opened m hm o ((h.activeOrder hm').trans ho)
      have hc : t.clock = s.clock := by rw [h.rest]
      have hs : ∀ p, t.slotAfter m p = s.slotAfter m p := by
        intro p
        have hr : t.restart = s.restart := by rw [h.rest]
        have hh : t.headOf m = s.headOf m := by rw [h.rest]; rfl
        unfold State.slotAfter
        rw [hr, hh, h1.2.2.1]
      rw [h1.1, hc, h1.2.1, hs] at h2
      exact h2
  others m hm := by
    have hm' : m ≠ n ∧ m ∉ members := by simpa [not_or] using hm
    have h1 := h.others m (by simpa using hm'.1)
    have h2 := g.others m hm'.2
    exact ⟨h2.1.trans h1.1, h2.2.1.trans h1.2.1, h2.2.2.1.trans h1.2.2.1, h2.2.2.2.trans h1.2.2.2⟩
  rest := by
    have h1 := g.rest
    rw [h.rest] at h1
    exact h1

/-- Every lane of a gang that has an active order enters FILLING. -/
theorem State.releaseGang_opens : ∀ (members : List LaneId) (s : State), members.Nodup →
    (∀ n ∈ members, (s.activeOrder n).isSome = true) → s.Opens (s.releaseGang members) members 1
  | [], s, _, _ => State.Opens.nil s 1
  | n :: members, s, hd, ha => by
    obtain ⟨o, ho⟩ := Option.isSome_iff_exists.mp (ha n List.mem_cons_self)
    have hd := List.nodup_cons.mp hd
    have h := State.enterFilling_opens (n := n) 1 ho
    refine h.cons hd.1 ?_
    refine State.releaseGang_opens members _ hd.2 fun m hm => ?_
    rw [h.activeOrder (by rw [List.mem_singleton]; rintro rfl; exact hd.1 hm)]
    exact ha m (List.mem_cons_of_mem _ hm)

/-- The waiting set is R79's. -/
theorem State.mem_waitingSet {s : State} {g : Nat} {n : LaneId} : n ∈ s.waitingSet g ↔ s.Waits g n := by
  unfold State.waitingSet State.Waits
  cases h : s.activeOrder n <;> simp [h, and_assoc]

/-- The release that a full waiting set makes, and none before (R81). -/
theorem State.releaseGang_whenFull (u : State) (g size : Nat) :
    ∃ members : List LaneId, members.Nodup ∧ (∀ k, k ∈ members ↔ u.Waits g k) ∧
      if members.length < size then
        (if size ≤ (u.waitingSet g).length then u.releaseGang (u.waitingSet g) else u) = u
      else u.Opens (if size ≤ (u.waitingSet g).length then u.releaseGang (u.waitingSet g) else u) members 1 := by
  have hn : (u.waitingSet g).Nodup := List.Nodup.filter _ (by decide)
  refine ⟨u.waitingSet g, hn, fun k => State.mem_waitingSet, ?_⟩
  by_cases h : size ≤ (u.waitingSet g).length
  · rw [if_neg (by omega), if_pos h]
    refine State.releaseGang_opens _ _ hn fun m hm => ?_
    obtain ⟨-, -, p, hp, -⟩ := State.mem_waitingSet.mp hm
    rw [hp]
    rfl
  · rw [if_pos (by omega), if_neg h]

/-- A join is R80's, with the release of R81. -/
theorem State.enterGangWait_joins (s : State) (n : LaneId) (o : Order) : s.JoinsGang (s.enterGangWait n o) n o := by
  have hj : (s.onLane n fun l => l.onSeq fun q =>
      { q with gangTimer := some (s.startTimer (s.lane n).params.gangWait) }).enterState n .gangWait =
      s.moved n { (s.lane n).seq with
        state := .gangWait, gangTimer := some { start := s.clock, duration := (s.lane n).params.gangWait } } := by
    simp [State.enterState, State.onLane, State.putLane, State.lane, Lane.onSeq, State.raiseNote, State.moved,
      State.startTimer]
  unfold State.enterGangWait
  simp only [hj]
  exact State.releaseGang_whenFull _ o.gangTag (o.gangSize.getD 0)

/-! ### ARMED, IDLE and the end of an order -/

/-- The test in ARMED is R95's and R96's. -/
theorem State.testArmed_tests {s : State} {n : LaneId} {o : Order} (h : s.activeOrder n = some o) :
    s.Tests (s.testArmed n) n o := by
  unfold State.Tests
  rcases (s.lane n).precondition_cases with ⟨hp, hf⟩ | ⟨c, rest, hc, hp, hf⟩
  · rw [hf]
    dsimp only
    obtain ⟨hq, ha⟩ := State.queue_of_activeOrder h
    have hr : (s.setHold n .none).reserve n =
        ({ s with reservations := s.reservations + 1 }.holding n .none).withHead n { o with reserved := true } := by
      generalize (s.queue n).drop 1 = rest at hq
      have hq' : s.orders.get n = o :: rest := hq
      simp [State.setHold, State.reserve, State.onHead, State.queue, hq', State.putQueue, State.onLane, State.putLane,
        State.lane, Lane.onSeq, State.holding, State.withHead]
    split
    · rename_i hfull
      rw [State.testArmed_of_full h hp (by simp [State.canReserve]; omega)]
      exact State.setHold_eq _ _ _
    · rename_i hroom
      have hroom : s.canReserve = true := by simp [State.canReserve]; omega
      split
      · rename_i hg
        rw [State.testArmed_of_alone h hp hroom hg, hr]
        refine State.enterFilling_opens (o := { o with reserved := true }) 1 ?_
        exact State.activeOrder_of_queue (PerLane.get_set_self _ _ _) ha
      · rename_i hg
        rw [State.testArmed_of_gang h hp hroom hg, hr]
        exact State.enterGangWait_joins _ _ _
  · rw [hf]
    exact (State.testArmed_of_fails h hp hc).trans (State.setHold_eq _ _ _)

/-- Take-up is R73's. -/
theorem State.takeUp_takesUp (s : State) (n : LaneId) : s.TakesUp (s.takeUp n) n := by
  unfold State.TakesUp State.takeUp
  cases hq : s.queue n with
  | nil => rfl
  | cons o rest =>
    have hq' : s.orders.get n = o :: rest := hq
    dsimp only
    split
    · rfl
    have he : (s.onHead n fun o => { o with active := true }).enterState n .armed =
        (s.moved n { (s.lane n).seq with state := .armed }).withHead n { o with active := true } := by
      simp [State.enterState, State.onHead, State.queue, hq', State.putQueue, State.onLane, State.putLane, State.lane,
        Lane.onSeq, State.raiseNote, State.moved, State.withHead]
    rw [he]
    exact State.testArmed_tests (State.activeOrder_of_queue (PerLane.get_set_self _ _ _) rfl)

/-- The application of a bank is R55's. -/
theorem Lane.applyBank_eq (l : Lane) : l.applyBank.1 = l.applied := by
  unfold Lane.applyBank Lane.applied ZeroTracker.settle driftLow driftHigh clampTo Conditioner.clearHistory
  dsimp only
  generalize max (-32768) (l.zero.tareRef - (l.flow.staged.params.driftLimit : Int)) = low
  generalize min 32767 (l.zero.tareRef + (l.flow.staged.params.driftLimit : Int)) = high
  by_cases h1 : l.zero.tare < low
  · simp [h1]
  · by_cases h2 : high < l.zero.tare <;> simp [h1, h2]

/-- An entry to IDLE is R93's. -/
theorem State.enterIdle_entersIdle (s : State) (n : LaneId) : s.EntersIdle (s.enterIdle n) n := by
  unfold State.EntersIdle State.enterIdle
  have hi : (s.onLane n fun l => l.onSeq fun q => { q with holdCause := .none, faultCause := .none }).enterState n .idle =
      s.moved n { (s.lane n).seq with state := .idle, holdCause := .none, faultCause := .none } := by
    simp [State.enterState, State.onLane, State.putLane, State.lane, Lane.onSeq, State.raiseNote, State.moved]
  simp only [hi]
  have hc : ((s.moved n { (s.lane n).seq with state := .idle, holdCause := .none, faultCause := .none }).lane n).flow =
      (s.lane n).flow := by simp [State.moved, State.lane]
  have hp : (s.moved n { (s.lane n).seq with state := .idle, holdCause := .none, faultCause := .none }).applyPending n =
      (if (s.lane n).flow.commitPending then
        { s.moved n { (s.lane n).seq with state := .idle, holdCause := .none, faultCause := .none } with
          lanes := (s.moved n { (s.lane n).seq with state := .idle, holdCause := .none, faultCause := .none }).lanes.set n
            ((s.moved n { (s.lane n).seq with state := .idle, holdCause := .none, faultCause := .none }).lane n).applied }
      else s.moved n { (s.lane n).seq with state := .idle, holdCause := .none, faultCause := .none }) := by
    unfold State.applyPending
    rw [hc]
    split
    · unfold State.applyBank
      rw [Lane.applyBank_eq]
      unfold State.raiseNoteIf
      split
      · simp [State.raiseNote, State.putLane, State.moved]
      · rfl
    · rfl
  rw [hp]
  exact State.takeUp_takesUp _ _

/-! ### Modes -/

/-- An entry to FILLING changes no mode. -/
theorem State.Opens.mode {s t : State} {members : List LaneId} {k : Nat} (h : s.Opens t members k) {n : LaneId}
    (ha : n ∈ members → ∃ o, s.activeOrder n = some o) : (t.lane n).seq.mode = (s.lane n).seq.mode := by
  by_cases hn : n ∈ members
  · obtain ⟨o, ho⟩ := ha hn
    rw [(h.opened n hn o ho).1]
    rfl
  · rw [(h.others n hn).1]

@[simp] theorem State.moved_lane_self (s : State) (n : LaneId) (q : Sequencer) :
    (s.moved n q).lane n = { s.lane n with seq := q } := PerLane.get_set_self _ _ _

@[simp] theorem State.holding_lane_self (s : State) (n : LaneId) (h : HoldCause) :
    (s.holding n h).lane n = { s.lane n with seq := { (s.lane n).seq with holdCause := h } } :=
  PerLane.get_set_self _ _ _

@[simp] theorem State.withHead_lane (s : State) (n m : LaneId) (o : Order) : (s.withHead n o).lane m = s.lane m := rfl

theorem State.JoinsGang.mode {s t : State} {n : LaneId} {o : Order} (h : s.JoinsGang t n o) :
    (t.lane n).seq.mode = (s.lane n).seq.mode := by
  obtain ⟨members, -, hw, h⟩ := h
  split at h
  · rw [h, State.moved_lane_self]
  · refine (h.mode fun hn => ?_).trans (by rw [State.moved_lane_self])
    obtain ⟨-, -, o, ho, -⟩ := (hw n).mp hn
    exact ⟨o, ho⟩

theorem State.Tests.mode {s t : State} {n : LaneId} {o : Order} (h : s.Tests t n o) (ha : o.active = true) :
    (t.lane n).seq.mode = (s.lane n).seq.mode := by
  unfold State.Tests at h
  split at h
  · rw [h, State.holding_lane_self]
  · split at h
    · rw [h, State.holding_lane_self]
    · have hr : ((({ s with reservations := s.reservations + 1 } : State).holding n .none).lane n).seq.mode =
          (s.lane n).seq.mode := by rw [State.holding_lane_self]; rfl
      dsimp only at h
      split at h
      · refine (h.mode fun _ => ⟨_, State.activeOrder_of_queue (PerLane.get_set_self _ _ _) ?_⟩).trans hr
        exact ha
      · exact h.mode.trans hr

theorem State.TakesUp.mode {s t : State} {n : LaneId} (h : s.TakesUp t n) :
    (t.lane n).seq.mode = (s.lane n).seq.mode := by
  unfold State.TakesUp at h
  split at h
  · rw [h]
  · split at h
    · rw [h]
    · exact (h.mode rfl).trans (by rw [State.withHead_lane, State.moved_lane_self])

/-- An entry to IDLE keeps the lane's mode. -/
theorem State.EntersIdle.mode {s t : State} {n : LaneId} (h : s.EntersIdle t n) :
    (t.lane n).seq.mode = (s.lane n).seq.mode := by
  refine (State.TakesUp.mode h).trans ?_
  split
  · exact (congrArg (fun l : Lane => l.seq.mode) (PerLane.get_set_self _ _ _)).trans
      (by rw [show ∀ l : Lane, l.applied.seq = l.seq from fun _ => rfl, State.moved_lane_self])
  · rw [State.moved_lane_self]

/-! ### A change of mode -/

/-- With the note slot pending, the application of a pending bank is R55's on the lane alone. -/
theorem State.applyPending_eq {s : State} {n : LaneId} (h : s.up.laneNotes.get n = true) :
    s.applyPending n = { s with
      lanes := s.lanes.set n (if (s.lane n).flow.commitPending then (s.lane n).applied else s.lane n) } := by
  have hn : s.up.laneNotes.set n true = s.up.laneNotes := by rw [← h]; exact PerLane.set_get_self _ _
  unfold State.applyPending
  split
  · unfold State.applyBank State.raiseNoteIf
    rw [Lane.applyBank_eq]
    split
    · simp [State.raiseNote, State.putLane, hn]
    · rfl
  · rw [show s.lanes.set n (s.lane n) = s.lanes from PerLane.set_get_self _ _]

/-- What entering a mode brings is R89's. -/
theorem State.settleMode_changesMode (s : State) (n : LaneId) (m : Mode) :
    s.ChangesMode ((s.inMode n m (s.lane n).goneOut).settleMode n m) n m := by
  unfold State.ChangesMode
  cases m
  · simp [State.settleMode, State.zeroFlow, State.onLane, State.putLane, State.inMode, State.moved, State.lane]
  · simp [State.settleMode, State.clearOverrange, State.onLane, State.putLane, State.inMode, State.moved, State.lane]
  · exact State.enterIdle_entersIdle _ _

/-- The queue of a lane that leaves AUTO is discarded, and a reservation returned. -/
theorem State.discardQueue_eq (s : State) (n : LaneId) :
    (s.returnReservation n).putQueue n [] = { s with
      orders := s.orders.set n []
      reservations := if (s.activeOrder n).any (·.reserved) then s.reservations - 1 else s.reservations } := by
  unfold State.returnReservation
  cases ha : s.activeOrder n with
  | none => rfl
  | some o =>
    obtain ⟨hq, -⟩ := State.queue_of_activeOrder ha
    generalize (s.queue n).drop 1 = rest at hq
    have hq' : s.orders.get n = o :: rest := hq
    cases hb : o.reserved <;> simp [hb, State.putQueue, State.onHead, State.queue, hq']

/-- A change of mode is R89's. -/
theorem State.changeMode_changesMode {s t : State} {n : LaneId} {m : Mode} (h : s.changeMode n m = some t) :
    s.ChangesMode t n m := by
  have key : ∀ u : State, u = s.inMode n m (s.lane n).goneOut → u.settleMode n m = t → s.ChangesMode t n m := by
    rintro u rfl rfl
    exact s.settleMode_changesMode n m
  unfold State.changeMode at h
  cases hm : (s.lane n).seq.mode with
  | outOfService =>
    have hm' : (s.lanes.get n).seq.mode = _ := hm
    simp only [hm] at h
    split at h
    · refine key _ ?_ (Option.some.inj h)
      have hg : (s.lane n).goneOut = (s.lane n).enterService := by unfold Lane.goneOut; rw [hm]; rfl
      rw [hg]
      simp [State.setMode, State.onLane, State.putLane, State.raiseNote, State.moved, Lane.onSeq, State.inMode, hm', State.lane]
    · cases h
  | manual =>
    have hm' : (s.lanes.get n).seq.mode = _ := hm
    simp only [hm] at h
    refine key _ ?_ (Option.some.inj h)
    have hg : (s.lane n).goneOut = s.lane n := by unfold Lane.goneOut; rw [hm]
    rw [hg]
    simp [State.setMode, State.onLane, State.putLane, State.raiseNote, State.moved, Lane.onSeq, State.inMode, hm', State.lane]
  | auto =>
    have hm' : (s.lanes.get n).seq.mode = _ := hm
    simp only [hm] at h
    split at h
    · unfold State.leaveAuto at h
      refine key _ ?_ (Option.some.inj h)
      rw [State.discardQueue_eq, State.applyPending_eq (by exact PerLane.get_set_self _ _ _)]
      have hg : (s.lane n).goneOut = (s.lane n).left := by unfold Lane.goneOut; rw [hm]
      rw [hg]
      simp only [State.setMode, State.onLane, State.putLane, State.raiseNote, State.moved, Lane.onSeq, State.inMode,
        State.lane, PerLane.get_set_self, PerLane.set_set_self, hm', if_true, true_and]
      congr 2
      unfold Lane.left
      split <;> rfl
    · cases h

/-- After a change of mode the lane is in the new mode. -/
theorem State.ChangesMode.mode {s t : State} {n : LaneId} {m : Mode} (h : s.ChangesMode t n m) :
    (t.lane n).seq.mode = m := by
  unfold State.ChangesMode at h
  cases m
  · rw [h, State.inMode, State.moved_lane_self]
  · rw [h, State.inMode, State.moved_lane_self]
  · exact (State.EntersIdle.mode h).trans (by rw [State.inMode, State.moved_lane_self])

/-! ### The end of an order -/

/-- The end of an order with a record is R74's. -/
theorem State.endWithRecord_eq {s : State} {n : LaneId} {o : Order} (h : s.activeOrder n = some o)
    (outcome : OrderOutcome) :
    s.endWithRecord n outcome =
      s.ended n o outcome (if outcome = .faulted then some (s.lane n).seq.faultCause else none) := by
  obtain ⟨hq, ha⟩ := State.queue_of_activeOrder h
  generalize (s.queue n).drop 1 = rest at hq
  have hq' : s.orders.get n = o :: rest := hq
  simp [State.endWithRecord, State.queue, hq', ha, State.putQueue, State.raiseNote, State.ended, recordOf]

/-- The end of an order that is not COMPLETE. -/
theorem State.endOrder_entersIdle {s : State} {n : LaneId} {o : Order} {outcome : OrderOutcome}
    (h : s.activeOrder n = some o) (hc : outcome ≠ .complete) (hf : outcome ≠ .faulted) :
    (s.ended n o outcome none).EntersIdle (s.endOrder n outcome) n := by
  unfold State.endOrder
  simp only [h, if_neg hc]
  rw [State.endWithRecord_eq h, if_neg hf]
  exact State.enterIdle_entersIdle _ _

/-! ### Settling -/

/-- An entry to SETTLING is R104's. -/
theorem State.enterSettling_eq (s : State) (n : LaneId) :
    s.enterSettling n = s.moved n { (s.lane n).seq with
      state := .settling
      closeTimer := none
      settleTimer := some { start := s.clock, duration := (s.lane n).params.settleTime }
      fallTimer := if (s.lane n).params.fallTime = 0 then none
        else some { start := s.clock, duration := (s.lane n).params.fallTime }
      quietRun := 0 } := by
  unfold State.enterSettling
  simp [State.enterState, State.onLane, State.putLane, State.lane, Lane.onSeq, State.raiseNote, State.moved,
    State.startTimer, State.startFallTimer, Lane.params]

/-- The learner's decision is R122's and R123's. -/
theorem Lane.learn_eq (l : Lane) (o : Order) (d : CutoffData) :
    l.learn o.cancelNoted (l.resultFrom o d false false) =
      ({ l with trims := l.trimsAfter o d }, { l.resultFrom o d false false with learned := l.learns o d }) := by
  have hl : learnable (l.resultFrom o d false false) o.cancelNoted l.params.learnWindow = l.learns o d := by
    simp [learnable, Lane.learns, Lane.resultFrom]
  unfold Lane.learn Lane.trimsAfter
  rw [hl]
  cases l.learns o d <;> rfl

/-- The end of settling is R107's. -/
theorem State.endSettling_settlingEnds {s : State} {n : LaneId} {o : Order} {d : CutoffData}
    (h : s.activeOrder n = some o) (hd : (s.lane n).seq.cutoff = some d) : s.SettlingEnds (s.endSettling n) n o d := by
  obtain ⟨hq, ha⟩ := State.queue_of_activeOrder h
  have hr : (s.lane n).settledResult o.targetKg false = (s.lane n).resultFrom o d false false := by
    simp [Lane.settledResult, Lane.cutoffData, hd, Lane.resultOf, Lane.resultFrom, overshootOf, sat32, Order.targetKg]
  let e : State :=
    { s with lanes := s.lanes.set n ((s.lane n).settledLane o d) }.withHead n ((s.lane n).settledOrder o d)
  have hs : (s.putLane n (({ s.lane n with trims := (s.lane n).trimsAfter o d } : Lane).onSeq fun q =>
      { q with settleTimer := none, fallTimer := none })).closeCompartment n
        { (s.lane n).resultFrom o d false false with learned := (s.lane n).learns o d } = e := by
    generalize (s.queue n).drop 1 = rest at hq
    have hq' : s.orders.get n = o :: rest := hq
    simp [State.closeCompartment, State.onHead, State.queue, hq', State.putQueue, State.onLane, State.putLane, State.lane,
      Lane.onSeq, e, State.withHead, Lane.settledLane, Lane.settledOrder]
  have hea : e.activeOrder n = some ((s.lane n).settledOrder o d) :=
    State.activeOrder_of_queue (PerLane.get_set_self _ _ _) ha
  have hel : e.lane n = (s.lane n).settledLane o d := PerLane.get_set_self _ _ _
  have hend : s.endSettling n =
      match settledOutcome o d.cause with
      | some outcome => e.endOrder n outcome
      | none => e.enterIndexing n := by
    unfold State.endSettling
    simp only [h, hr, Lane.learn_eq, hs]
    rfl
  have hcomplete : (({ e with lanes := s.lanes.set n { (s.lane n).settledLane o d with recon := some ((s.lane n).entryAfter o d) } } : State).ended n
            ((s.lane n).settledOrder o d) .complete none).EntersIdle (e.endOrder n .complete) n := by
    unfold State.endOrder
    simp only [hea, if_true]
    have hx : (e.onLane n fun l => { l with recon := some (reconOf l ((s.lane n).settledOrder o d)) }) =
        { e with lanes := s.lanes.set n { (s.lane n).settledLane o d with recon := some ((s.lane n).entryAfter o d) } } := by
      unfold State.onLane
      rw [hel]
      simp [e, State.putLane, State.withHead, reconOf, meteredGrams, Lane.settledLane, Lane.settledOrder, Lane.entryAfter]
    have hea' : ({ e with lanes := s.lanes.set n { (s.lane n).settledLane o d with
        recon := some ((s.lane n).entryAfter o d) } } : State).activeOrder n = some ((s.lane n).settledOrder o d) := hea
    rw [hx, State.endWithRecord_eq hea', if_neg (by decide)]
    exact State.enterIdle_entersIdle _ _
  rw [hend]
  show if o.cancelNoted = true ∨ d.cause = .cancel then (e.ended n ((s.lane n).settledOrder o d) .cancelled none).EntersIdle _ n
    else if d.cause = .operator then (e.ended n ((s.lane n).settledOrder o d) .stopped none).EntersIdle _ n
    else if d.cause = .permitLost then (e.ended n ((s.lane n).settledOrder o d) .interrupted none).EntersIdle _ n
    else if o.compartment < o.targets.length then
      _ = e.moved n { ((s.lane n).settledLane o d).seq with state := .indexing, holdCause := .noVehicle, liftMark := false }
    else _
  unfold settledOutcome
  by_cases h1 : o.cancelNoted = true ∨ d.cause = .cancel
  · simp only [h1, if_true, Bool.or_eq_true, beq_iff_eq]
    exact State.endOrder_entersIdle hea (by decide) (by decide)
  · simp only [h1, if_false, Bool.or_eq_true, beq_iff_eq]
    by_cases h2 : d.cause = .operator
    · simp only [h2, if_true]
      exact State.endOrder_entersIdle hea (by decide) (by decide)
    · simp only [h2, if_false]
      by_cases h3 : d.cause = .permitLost
      · simp only [h3, if_true]
        exact State.endOrder_entersIdle hea (by decide) (by decide)
      · simp only [h3, if_false]
        by_cases h4 : o.compartment < o.targets.length
        · simp only [h4, if_true]
          unfold State.enterIndexing
          simp [State.enterState, State.onLane, State.putLane, State.lane, Lane.onSeq, State.raiseNote, State.moved, e,
            State.withHead]
        · simp only [h4, if_false]
          exact hcomplete

end Sys2Proof.Machine
end

