-- ==== Sys2Proof/Laws/Sampling.lean ====
section
/-! SUPPORT. The stages of a sample in the words of the statements (Safety.lean). -/

namespace Sys2Proof.Machine

theorem Lane.running_iff (l : Lane) : l.running = true ↔ l.Runs := by
  unfold Lane.running Lane.Runs
  cases l.seq.mode <;> cases l.seq.state <;> simp

theorem Lane.running_eq (l : Lane) : l.running = decide l.Runs := by
  rw [Bool.eq_iff_iff, Lane.running_iff, decide_eq_true_iff]

/-! ### Stage 1 -/

/-- The spike limiter is R12's. -/
theorem limitSpike_eq (limit : Nat) (history : List Int) (net : Int) :
    let limited := if limit = 0 ∨ history = [] then net
      else max (meanOf history - limit) (min (meanOf history + limit) net)
    (limitSpike limit history net).1 = limited
      ∧ ((limitSpike limit history net).2 = .up ↔ limited < net)
      ∧ ((limitSpike limit history net).2 = .none ↔ limited = net) := by
  unfold limitSpike meanOf average
  generalize history.sum.tdiv history.length = a
  dsimp only
  split
  · simp
  · split
    · refine ⟨by simp; omega, by simp; omega, by simp; omega⟩
    · split
      · refine ⟨by simp; omega, by simp; omega, by simp; omega⟩
      · refine ⟨by simp; omega, by simp; omega, by simp; omega⟩

/-- The clip mark of a sample (R12). -/
def Lane.clipOf (l : Lane) (m : Meas) : Clip :=
  (limitSpike l.params.spikeLimit l.cond.history (netForce m.force l.zero.tare)).2

theorem Lane.clipOf_up (l : Lane) (m : Meas) : l.clipOf m = .up ↔ l.limitedOf m < l.netOf m :=
  (limitSpike_eq _ _ _).2.1

theorem Lane.clipOf_none (l : Lane) (m : Meas) : l.clipOf m = .none ↔ l.limitedOf m = l.netOf m :=
  (limitSpike_eq _ _ _).2.2

/-- The sample record that stage 1 hands on. -/
def Lane.recordAfter (l : Lane) (m : Meas) : SampleRecord where
  first := l.cond.prevTimestamp.isNone
  interval := l.ticks m
  net := l.limitedOf m
  clip := l.clipOf m
  average := l.averageAfter m
  pressure := m.pressure
  gate := m.gate
  flags := m.flags

/-- The lane after stage 1 of a sample that is no duplicate. -/
def Lane.conditioned (l : Lane) (m : Meas) : Lane :=
  { l with
    cond := { prevTimestamp := some m.timestamp, history := l.historyAfter m, lastFlags := some m.flags.kept,
              lastGate := some m.gate }
    counters := { l.counters with
      samplesTaken := raised l.counters.samplesTaken
      gaps := if l.isGap m then raised l.counters.gaps else l.counters.gaps
      spikes := if l.limitedOf m = l.netOf m then l.counters.spikes else raised l.counters.spikes }
    seq := { l.seq with
      liftMark := l.seq.liftMark || !m.flags.bellowsDown
      gap := l.seq.gap || (l.isGap m && decide l.Runs) } }

theorem Lane.condition_eq (l : Lane) (m : Meas) (first : Bool) (interval : Nat) :
    l.condition m first interval =
      ({ l with
          cond := { prevTimestamp := some m.timestamp, history := l.historyAfter m, lastFlags := some m.flags.kept,
                    lastGate := some m.gate }
          counters := { l.counters with
            samplesTaken := raised l.counters.samplesTaken
            spikes := if l.limitedOf m = l.netOf m then l.counters.spikes else raised l.counters.spikes }
          seq := { l.seq with liftMark := l.seq.liftMark || !m.flags.bellowsDown } },
       { first, interval, net := l.limitedOf m, clip := l.clipOf m, average := l.averageAfter m, pressure := m.pressure,
         gate := m.gate, flags := m.flags }) := by
  have h1 : (limitSpike l.params.spikeLimit l.cond.history (netForce m.force l.zero.tare)).1 = l.limitedOf m :=
    (limitSpike_eq _ _ _).1
  have h2 : (if (limitSpike l.params.spikeLimit l.cond.history (netForce m.force l.zero.tare)).2 = .none
      then l.counters.spikes else raised l.counters.spikes) =
      if l.limitedOf m = l.netOf m then l.counters.spikes else raised l.counters.spikes :=
    if_congr (Lane.clipOf_none l m) rfl rfl
  have hp : (l.copyReport m).params = l.params := rfl
  have hh : (l.copyReport m).cond.history = l.cond.history := rfl
  have hz : (l.copyReport m).zero = l.zero := rfl
  have hc : (l.copyReport m).counters = l.counters := rfl
  unfold Lane.condition
  simp only [hp, hh, hz, hc, bump_eq_raised]
  rw [← h2, ← h1]
  simp only [Lane.copyReport, Lane.clipOf, Lane.averageAfter, Lane.historyAfter, ← h1]
  rfl

/-- Stage 1 of a sample that is no duplicate. -/
theorem Lane.stage1_eq (l : Lane) (m : Meas) (h : l.cond.prevTimestamp ≠ some m.timestamp) :
    l.stage1 m = (l.conditioned m, some (l.recordAfter m)) := by
  unfold Lane.stage1
  cases hp : l.cond.prevTimestamp with
  | none =>
    have hg : l.isGap m = false := by simp [Lane.isGap, hp]
    simp only [Lane.condition_eq]
    simp [Lane.conditioned, Lane.recordAfter, hg, hp, Lane.ticks]
  | some prev =>
    have hr : (m.timestamp - prev).toNat ≠ 0 := by
      intro e
      apply h
      rw [hp]
      congr 1
      have : m.timestamp - prev = 0 := BitVec.eq_of_toNat_eq (by simpa using e)
      bv_omega
    have hg : l.isGap m = decide (l.params.gapLimit < (m.timestamp - prev).toNat) := by simp [Lane.isGap, hp]
    simp only [hr, if_false]
    split
    · rename_i hgap
      simp only [Lane.condition_eq]
      simp only [hgap, decide_true] at hg
      simp [Lane.conditioned, Lane.recordAfter, hg, hp, Lane.ticks, bump_eq_raised, Lane.running_eq]
      and_intros <;> rfl
    · rename_i hgap
      simp only [Lane.condition_eq]
      simp only [hgap, decide_false] at hg
      simp [Lane.conditioned, Lane.recordAfter, hg, hp, Lane.ticks]

/-! ### Stage 2 -/

theorem tareStep_eq (a : Int) :
    tareStep a = if 8 ≤ a.natAbs then a.tdiv 8 else if 0 < a then 1 else if a < 0 then -1 else 0 := by
  unfold tareStep
  split
  · rw [if_neg (by omega)]
    rcases Int.lt_trichotomy a 0 with h | h | h
    · rw [Int.sign_eq_neg_one_of_neg h, if_neg (by omega), if_pos h]
    · subst h; rfl
    · rw [Int.sign_eq_one_of_pos h, if_pos h]
  · rw [if_pos (by omega)]

/-- A sample qualifies by R20. -/
theorem Lane.qualifies_eq (l : Lane) (m : Meas) : (l.conditioned m).qualifies (l.recordAfter m) = decide (l.TracksZero m) := by
  rw [Bool.eq_iff_iff, decide_eq_true_iff]
  unfold Lane.qualifies Lane.TracksZero Lane.Runs Lane.conditioned Lane.recordAfter
  simp only [Lane.params]
  have key : ∀ (md : Mode) (st : LaneState) (x y : Prop) [Decidable x] [Decidable y],
      ((match md with
        | .outOfService => false
        | .manual => true
        | .auto =>
          match st with
          | .idle | .armed | .gangWait | .indexing | .fault => true
          | .filling | .trickle | .cutoff | .settling => false) && decide x && decide y) = true ↔
      md ≠ .outOfService ∧ ¬(md = .auto ∧ (st = .filling ∨ st = .trickle ∨ st = .cutoff ∨ st = .settling)) ∧ x ∧ y := by
    intro md st x y _ _
    cases md <;> cases st <;> simp
  exact key l.seq.mode l.seq.state _ _

/-- Stage 2 is R20 to R23. -/
theorem Lane.stage2_eq (l : Lane) (m : Meas) :
    (l.conditioned m).stage2 (l.recordAfter m) =
      ({ l.conditioned m with zero := l.zeroAfter m }, (l.zeroAfter m).buildup != l.zero.buildup) := by
  unfold Lane.stage2
  rw [Lane.qualifies_eq]
  have hz : (l.conditioned m).zero = l.zero := rfl
  have hp : (l.conditioned m).params = l.params := rfl
  have hi : (l.recordAfter m).interval = l.ticks m := rfl
  have ha : (l.recordAfter m).average = l.averageAfter m := rfl
  simp only [hz, hp, hi, ha, decide_eq_true_eq]
  unfold Lane.zeroAfter
  by_cases ht : l.TracksZero m
  · rw [if_pos ht, if_neg (not_not.mpr ht)]
    by_cases hh : l.zero.holdAcc + l.ticks m < l.params.zeroHold * 10
    · simp [hh]
    · simp only [hh, if_false]
      unfold ZeroTracker.settle driftLow driftHigh
      rw [tareStep_eq]
      dsimp only
      generalize l.zero.tare + (if 8 ≤ (l.averageAfter m).natAbs then (l.averageAfter m).tdiv 8
        else if 0 < l.averageAfter m then 1 else if l.averageAfter m < 0 then -1 else 0) = candidate
      generalize max (-32768) (l.zero.tareRef - (l.params.driftLimit : Int)) = low
      generalize min 32767 (l.zero.tareRef + (l.params.driftLimit : Int)) = high
      by_cases h1 : candidate < low
      · cases l.zero.buildup <;> simp [h1]
      · by_cases h2 : high < candidate <;> cases l.zero.buildup <;> simp [h1, h2]
  · simp [ht]

/-! ### Stage 3 -/

/-- Stage 3 is R32 to R39. -/
theorem Lane.step_classified (l : Lane) (m : Meas) : l.Classified m (l.cls.step l.params (l.recordAfter m)) := by
  have hup : ∀ x y : Nat, (match l.clipOf m with | .up => x | .down => y | .none => y) =
      if l.limitedOf m < l.netOf m then x else y := by
    intro x y
    by_cases h : l.limitedOf m < l.netOf m
    · rw [if_pos h, (Lane.clipOf_up l m).mpr h]
    · rw [if_neg h]
      have : l.clipOf m ≠ .up := fun e => h ((Lane.clipOf_up l m).mp e)
      cases hc : l.clipOf m <;> first | rfl | exact absurd hc this
  have hflush : flushStep (l.clipOf m) l.cls.flushRun = if l.limitedOf m < l.netOf m then min 255 (l.cls.flushRun + 1) else 0 := by
    have h := hup (min 255 (l.cls.flushRun + 1)) 0
    unfold flushStep
    cases hc : l.clipOf m <;> rw [hc] at h <;> exact h
  unfold Classifier.step
  have h1 : (l.recordAfter m).clip = l.clipOf m := rfl
  have h2 : (l.recordAfter m).pressure = m.pressure := rfl
  have h3 : (l.recordAfter m).interval = l.ticks m := rfl
  simp only [h1, h2, h3, hflush]
  unfold pressureStep
  generalize hpc : (if m.pressure < l.params.pLow then Regime.settled
    else if l.params.pHigh ≤ m.pressure then Regime.aerated else l.cls.pressureCand) = pc
  generalize hfr : (if l.limitedOf m < l.netOf m then min 255 (l.cls.flushRun + 1) else 0) = fr
  have hnone := Lane.clipOf_none l m
  unfold Classifier.candidateStep
  dsimp only
  have key : ∀ c : Classifier, c.pressureCand = pc → c.flushRun = fr → c.active = l.cls.active →
      c.settleAcc = l.cls.settleAcc →
      (l.cls.candidate = .flushing →
        if l.params.window ≤ (if l.limitedOf m = l.netOf m then l.cls.calmRun + 1 else 0) then
          c.candidate = pc ∧ c.calmRun = 0
        else c.candidate = .flushing ∧ c.calmRun = (if l.limitedOf m = l.netOf m then l.cls.calmRun + 1 else 0)) →
      (l.cls.candidate ≠ .flushing →
        if l.params.flushRun ≤ fr then c.candidate = .flushing ∧ c.calmRun = 0
        else c.candidate = pc ∧ c.calmRun = l.cls.calmRun) →
      l.Classified m (c.switchStep l.params l.cls.candidate (l.ticks m)) := by
    intro c h1 h2 h3 h4 h5 h6
    have hk : ∀ d : Classifier, d.pressureCand = pc → d.flushRun = fr → d.candidate = c.candidate →
        d.calmRun = c.calmRun →
        (c.candidate = l.cls.active → d.active = l.cls.active ∧ d.settleAcc = 0) →
        (c.candidate ≠ l.cls.active → c.candidate = .flushing → d.active = .flushing ∧ d.settleAcc = 0) →
        (c.candidate ≠ l.cls.active → c.candidate ≠ .flushing →
          let stood := if c.candidate = l.cls.candidate then l.cls.settleAcc + l.ticks m else 0
          if l.params.regimeSettle * 10 ≤ stood then d.active = c.candidate ∧ d.settleAcc = 0
          else d.active = l.cls.active ∧ d.settleAcc = stood) → l.Classified m d := by
      intro d g1 g2 g3 g4 g5 g6 g7
      exact {
        pressure := g1.trans hpc.symm
        flushRun := g2.trans hfr.symm
        flushing := by rw [g1, g3, g4]; exact h5
        otherwise := by rw [g1, g2, g3, g4]; exact h6
        equal := by rw [g3]; exact g5
        flooded := by rw [g3]; exact g6
        switching := by rw [g3]; exact g7 }
    unfold Classifier.switchStep
    rw [h3, h4]
    split
    · rename_i e
      exact hk _ h1 h2 rfl rfl (fun _ => ⟨rfl, rfl⟩) (fun n _ => absurd e n) (fun n _ => absurd e n)
    · rename_i e
      split
      · rename_i f
        exact hk _ h1 h2 rfl rfl (fun x => absurd x e) (fun _ _ => ⟨rfl, rfl⟩) (fun _ n => absurd f n)
      · rename_i f
        dsimp only
        obtain ⟨stood, hst⟩ : ∃ x, x = if c.candidate = l.cls.candidate then l.cls.settleAcc + l.ticks m else 0 :=
          ⟨_, rfl⟩
        rw [← hst]
        split
        · rename_i hs
          refine hk _ h1 h2 rfl rfl (fun x => absurd x e) (fun _ x => absurd x f) (fun _ _ => ?_)
          dsimp only
          rw [← hst, if_pos hs]
          exact ⟨rfl, rfl⟩
        · rename_i hs
          refine hk _ h1 h2 rfl rfl (fun x => absurd x e) (fun _ x => absurd x f) (fun _ _ => ?_)
          dsimp only
          rw [← hst, if_neg hs]
          exact ⟨rfl, rfl⟩
  have hcalm : (if l.clipOf m = .none then l.cls.calmRun + 1 else 0) =
      if l.limitedOf m = l.netOf m then l.cls.calmRun + 1 else 0 := if_congr hnone rfl rfl
  rw [hcalm]
  generalize (if l.limitedOf m = l.netOf m then l.cls.calmRun + 1 else 0) = calm at key ⊢
  split
  · rename_i hf
    split
    · rename_i hw
      exact key _ rfl rfl rfl rfl (fun _ => by rw [if_pos hw]; exact ⟨rfl, rfl⟩) (fun n => absurd hf n)
    · rename_i hw
      exact key _ rfl rfl rfl rfl (fun _ => by rw [if_neg hw]; exact ⟨hf, rfl⟩) (fun n => absurd hf n)
  · rename_i hf
    split
    · rename_i hw
      exact key _ rfl rfl rfl rfl (fun n => absurd n hf) (fun _ => by rw [if_pos hw]; exact ⟨rfl, rfl⟩)
    · rename_i hw
      exact key _ rfl rfl rfl rfl (fun n => absurd n hf) (fun _ => by rw [if_neg hw]; exact ⟨rfl, rfl⟩)

/-! ### Stage 4 -/

/-- Forces rising and flows not falling along a list of breakpoints. -/
def risingFrom (ps : List Breakpoint) : Prop :=
  ∀ i b e, ps[i]? = some b → ps[i + 1]? = some e → b.force < e.force ∧ b.flow ≤ e.flow

theorem risingFrom.tail {p : Breakpoint} {ps : List Breakpoint} (h : risingFrom (p :: ps)) : risingFrom ps :=
  fun i b e h1 h2 => h (i + 1) b e (by simpa using h1) (by simpa using h2)

theorem risingFrom.head_le {p : Breakpoint} : ∀ {ps : List Breakpoint}, risingFrom (p :: ps) →
    ∀ {i : Nat} {b : Breakpoint}, (p :: ps)[i]? = some b → p.force ≤ b.force
  | _, _, 0, b, hb => by
    cases hb
    exact Nat.le_refl _
  | [], _, i + 1, b, hb => by simp at hb
  | q :: ps, h, i + 1, b, hb => by
    have h1 := (h 0 p q rfl rfl).1
    have h2 := h.tail.head_le (i := i) (b := b) (by simpa using hb)
    omega

/-- The interpolation of R60 between two breakpoints. -/
theorem curveFlowAt_between {a : Nat} : ∀ {ps : List Breakpoint}, risingFrom ps → ∀ {i : Nat} {b e : Breakpoint},
    ps[i]? = some b → ps[i + 1]? = some e → b.force ≤ a → a < e.force →
    curveFlowAt ps a = b.flow + (a - b.force) * (e.flow - b.flow) / (e.force - b.force)
  | [], _, i, b, e, hb, _, _, _ => by simp at hb
  | [p], _, i, b, e, _, he, _, _ => by simp at he
  | p :: q :: ps, h, 0, b, e, hb, he, h1, h2 => by
    cases hb
    cases he
    exact if_pos h2
  | p :: q :: ps, h, i + 1, b, e, hb, he, h1, h2 => by
    have h3 := h.tail.head_le (i := i) (b := b) (by simpa using hb)
    have h4 : ¬a < q.force := by omega
    show (if a < q.force then _ else curveFlowAt (q :: ps) a) = _
    rw [if_neg h4]
    exact curveFlowAt_between h.tail (i := i) (by simpa using hb) (by simpa using he) h1 h2

/-- The flow of the last breakpoint at or beyond it (R60). -/
theorem curveFlowAt_last {a : Nat} : ∀ {ps : List Breakpoint}, risingFrom ps → ∀ {e : Breakpoint},
    ps.getLast? = some e → e.force ≤ a → curveFlowAt ps a = e.flow
  | [], _, e, he, _ => by simp at he
  | [p], _, e, he, _ => by
    simp at he
    subst he
    rfl
  | p :: q :: ps, h, e, he, h1 => by
    have he' : (q :: ps).getLast? = some e := by simpa [List.getLast?_cons_cons] using he
    obtain ⟨i, hi⟩ : ∃ i, (q :: ps)[i]? = some e := by
      have := List.mem_of_getLast? he'
      exact List.mem_iff_getElem?.mp this
    have h3 := h.tail.head_le (i := i) (b := e) hi
    have h4 : ¬a < q.force := by omega
    show (if a < q.force then _ else curveFlowAt (q :: ps) a) = _
    rw [if_neg h4]
    exact curveFlowAt_last h.tail he' h1

/-- The curve flow is R60's. -/
theorem curveFlow_gives {c : Curve} (h : c.Rising) (a : Int) : c.Gives a (curveFlow c.points a) := by
  have hr : risingFrom c.points := h.2.2
  refine ⟨fun ha => if_pos ha, fun e he h0 ha => ?_, fun i b e hb he h0 h1 h2 => ?_⟩
  · unfold curveFlow
    rw [if_neg (by omega)]
    exact curveFlowAt_last hr he (by omega)
  · unfold curveFlow
    rw [if_neg (by omega)]
    exact curveFlowAt_between hr hb he (by omega) (by omega)

theorem overrangeAt_eq (c : Curve) (a : Int) : overrangeAt c.points a = c.reachedBy a := by
  unfold overrangeAt Curve.reachedBy
  show (match c.points.getLast? with | some p => decide _ | none => false) = c.points.getLast?.any _
  cases c.points.getLast? <;> rfl

/-! ### Stages 1 to 4 together -/

/-- The lane after stages 1 to 4. -/
def Lane.staged (now : BitVec 32) (l : Lane) (m : Meas) : Lane :=
  let c := l.cls.step l.params (l.recordAfter m)
  let curve := l.flow.active.curves.get c.active
  let flow := curveFlow curve.points (l.averageAfter m) * l.flow.meterFactor / 10000
  { l.conditioned m with
    zero := l.zeroAfter m
    cls := c
    flow := { l.flow with
      flow
      overrange := l.flow.overrange || (decide (l.seq.mode = .manual ∨ l.Runs) && curve.reachedBy (l.averageAfter m)) }
    integ := l.integAfter m flow
    seq := { (l.conditioned m).seq with
      silenceTimer := some { start := now, duration := l.params.silenceTime }
      silentMark := false } }

/-- Stages 1 to 4 are the rules'. -/
theorem Lane.staged_handled (now : BitVec 32) (l : Lane) (m : Meas) : l.Handled now m (l.staged now m) where
  conditioned := rfl
  counted := rfl
  tracked := rfl
  classified := l.step_classified m
  metered := ⟨_, fun h => curveFlow_gives h _, rfl⟩
  integrated := rfl
  heard := rfl
  kept := ⟨rfl, rfl, rfl, rfl⟩

/-- The lane when contact has been noted (R3). -/
def Lane.contacted (now : BitVec 32) (l : Lane) : Lane :=
  { l with seq := { l.seq with
      silenceTimer := some { start := now, duration := l.params.silenceTime }, silentMark := false } }

theorem Lane.metering_eq (l : Lane) : l.metering = decide (l.seq.mode = .manual ∨ l.Runs) := by
  unfold Lane.metering
  rw [Lane.running_eq]
  have : (l.seq.mode == .manual) = decide (l.seq.mode = .manual) := rfl
  rw [this, ← Bool.decide_or]

/-- Stage 4 is R60 to R63 and R65 to R68. -/
theorem Lane.stage4_eq (now : BitVec 32) (l : Lane) (m : Meas) (targetKg : Nat) :
    let l3 : Lane := { (l.contacted now).conditioned m with
      zero := l.zeroAfter m, cls := l.cls.step l.params (l.recordAfter m) }
    let l' := l.staged now m
    let preact := (((l'.flow.flow * l.params.fallTime / 1000 : Nat) : Int) + l.trims.get l'.cls.active).toNat
    (l3.stage4 (l.recordAfter m) targetKg).1 = l'
      ∧ (l.seq.mode = .auto → l.seq.state = .filling ∨ l.seq.state = .trickle →
          ((l3.stage4 (l.recordAfter m) targetKg).2.cutoffDue = true ↔ targetKg * 1000 ≤ l'.integ.grams + preact)
          ∧ (l.seq.state = .filling → (l3.stage4 (l.recordAfter m) targetKg).2.cutoffDue = false →
              ((l3.stage4 (l.recordAfter m) targetKg).2.trickleDue = true ↔
                targetKg * 1000 - l.params.trickleBand * 1000 ≤ l'.integ.grams))) := by
  intro l3 l' preact
  have hmet : l3.metering = decide (l.seq.mode = .manual ∨ l.Runs) := l3.metering_eq
  have hrun : l3.running = decide l.Runs := l3.running_eq
  have hfirst : (l.recordAfter m).first = l.cond.prevTimestamp.isNone := rfl
  have hinteg : ∀ q, (if (l.recordAfter m).first then l3.integ
      else if l3.seq.mode = .manual then l3.integ.addManual (q * (l.recordAfter m).interval)
      else if l3.running then l3.integ.addGrams (q * (l.recordAfter m).interval) else l3.integ) = l.integAfter m q := by
    intro q
    rw [hrun, hfirst]
    unfold Lane.integAfter
    have h1 : (l.recordAfter m).interval = l.ticks m := rfl
    have h2 : l3.integ = l.integ := rfl
    have h3 : l3.seq.mode = l.seq.mode := rfl
    rw [h1, h2, h3]
    dsimp only
    simp only [Option.isNone_iff_eq_none, decide_eq_true_eq]
    split
    · rfl
    · split
      · unfold Integrator.addManual
        rfl
      · rfl
  have h1 : (l3.stage4 (l.recordAfter m) targetKg).1 = l' := by
    unfold Lane.stage4
    dsimp only
    have := hinteg l'.flow.flow
    show ({ l3 with integ := _, flow := _ } : Lane) = _
    rw [hmet]
    have ho : overrangeAt (l3.flow.active.curves.get l3.cls.active).points (l.recordAfter m).average =
      (l.flow.active.curves.get l'.cls.active).reachedBy (l.averageAfter m) := overrangeAt_eq _ _
    rw [ho, Bool.and_comm]
    exact congrArg (fun g => ({ l' with integ := g } : Lane)) this
  refine ⟨h1, fun hm hst => ?_⟩
  have hp : l3.pouring = true := by
    unfold Lane.pouring
    show ((l.seq.mode == .auto) && match l.seq.state with | .filling | .trickle => true | _ => false) = true
    rw [hm]
    rcases hst with h | h <;> rw [h] <;> rfl
  have hg : (l3.stage4 (l.recordAfter m) targetKg).1.integ = l'.integ := congrArg Lane.integ h1
  have hcut : (l3.stage4 (l.recordAfter m) targetKg).2.cutoffDue =
      decide (targetKg * 1000 ≤ l'.integ.grams + preact) := by
    have : (l3.stage4 (l.recordAfter m) targetKg).2.cutoffDue =
        (l3.pouring && decide (targetKg * 1000 ≤ (l3.stage4 (l.recordAfter m) targetKg).1.integ.grams +
          (if l3.pouring then preactOf l'.flow.flow l.params.fallTime (l.trims.get l'.cls.active) else 0))) := rfl
    rw [this, hp, hg]
    rfl
  refine ⟨by rw [hcut, decide_eq_true_iff], fun hf hc => ?_⟩
  have : (l3.stage4 (l.recordAfter m) targetKg).2.trickleDue =
      ((l.seq.mode == .auto) && (l.seq.state == .filling) && !(l3.stage4 (l.recordAfter m) targetKg).2.cutoffDue
        && decide (trickleThreshold targetKg l.params.trickleBand ≤ (l3.stage4 (l.recordAfter m) targetKg).1.integ.grams)) :=
    rfl
  rw [this, hm, hf, hc, hg]
  simp [trickleThreshold]

/-- `s` at the start of stage 5, but for the list of those handed to the lane engines. -/
def State.staged (s : State) (n : LaneId) (m : Meas) : State :=
  let l := s.lane n
  let l' := l.staged s.clock m
  { s with
    lanes := s.lanes.set n l'
    up := { s.up with laneNotes :=
      if l.seq.silentMark = true ∨ l'.zero.buildup ≠ l.zero.buildup ∨ l'.cls.active ≠ l.cls.active then
        s.up.laneNotes.set n true
      else s.up.laneNotes } }

/-- The regime-change mark (R32). -/
def Lane.regimeLeft (l : Lane) (now : BitVec 32) (m : Meas) : Option Regime :=
  if (l.staged now m).cls.active = l.cls.active then none else some l.cls.active

theorem State.putLane_raiseNoteIf (s : State) (n : LaneId) (l : Lane) (b : Bool) :
    (s.putLane n l).raiseNoteIf n b = { s with
      lanes := s.lanes.set n l
      up := { s.up with laneNotes := if b then s.up.laneNotes.set n true else s.up.laneNotes } } := by
  cases b <;> rfl

/-- A sample that is no duplicate, up to its stage 5. -/
theorem State.takeSample_eq {s : State} {n : LaneId} {m : Meas} (hm : (s.lane n).seq.mode ≠ .outOfService)
    (hp : (s.lane n).cond.prevTimestamp ≠ some m.timestamp) :
    s.takeSample n m = (s.staged n m).stage5 n ((s.lane n).recordAfter m) ((s.lane n).regimeLeft s.clock m)
      (({ ((s.lane n).contacted s.clock).conditioned m with
          zero := (s.lane n).zeroAfter m
          cls := (s.lane n).cls.step (s.lane n).params ((s.lane n).recordAfter m) } : Lane).stage4
        ((s.lane n).recordAfter m) (s.activeTarget n)).2 := by
  generalize hl : s.lane n = l at hm hp
  -- contact
  have hc : s.contact n = { s with
      lanes := s.lanes.set n (l.contacted s.clock)
      up := { s.up with laneNotes := if l.seq.silentMark then s.up.laneNotes.set n true else s.up.laneNotes } } := by
    show (s.putLane n _).raiseNoteIf n _ = _
    rw [State.putLane_raiseNoteIf, hl]
    rfl
  have hcl : (s.contact n).lane n = l.contacted s.clock := by rw [hc]; exact PerLane.get_set_self _ _ _
  have hmode : ((s.contact n).lane n).seq.mode ≠ .outOfService := by rw [hcl]; exact hm
  have h1 : (l.contacted s.clock).stage1 m = ((l.contacted s.clock).conditioned m, some (l.recordAfter m)) :=
    Lane.stage1_eq _ _ hp
  have hrun : s.takeSample n m =
      ((s.contact n).putLane n ((l.contacted s.clock).conditioned m)).laterStages n (l.recordAfter m) := by
    unfold State.takeSample
    dsimp only
    rw [hcl, h1]
    cases hmd : (l.contacted s.clock).seq.mode with
    | outOfService => exact absurd hmd hm
    | manual => rfl
    | auto => rfl
  rw [hrun]
  have hput : (s.contact n).putLane n ((l.contacted s.clock).conditioned m) = { s with
      lanes := s.lanes.set n ((l.contacted s.clock).conditioned m)
      up := { s.up with laneNotes := if l.seq.silentMark then s.up.laneNotes.set n true else s.up.laneNotes } } := by
    rw [hc]
    simp [State.putLane]
  rw [hput]
  unfold State.laterStages
  -- stage 2
  have h2 : (({ s with
      lanes := s.lanes.set n ((l.contacted s.clock).conditioned m)
      up := { s.up with laneNotes := if l.seq.silentMark then s.up.laneNotes.set n true else s.up.laneNotes } } :
        State).stage2 n (l.recordAfter m)) = { s with
      lanes := s.lanes.set n { (l.contacted s.clock).conditioned m with zero := l.zeroAfter m }
      up := { s.up with laneNotes := if l.seq.silentMark = true ∨ (l.zeroAfter m).buildup ≠ l.zero.buildup then
        s.up.laneNotes.set n true else s.up.laneNotes } } := by
    unfold State.stage2
    rw [State.putLane_raiseNoteIf]
    have hx : ({ s with
      lanes := s.lanes.set n ((l.contacted s.clock).conditioned m)
      up := { s.up with laneNotes := if l.seq.silentMark then s.up.laneNotes.set n true else s.up.laneNotes } } :
        State).lane n = (l.contacted s.clock).conditioned m := PerLane.get_set_self _ _ _
    have hst : ((l.contacted s.clock).conditioned m).stage2 (l.recordAfter m) =
        ({ (l.contacted s.clock).conditioned m with zero := l.zeroAfter m },
          (l.zeroAfter m).buildup != l.zero.buildup) := Lane.stage2_eq (l.contacted s.clock) m
    rw [hx, hst]
    cases l.seq.silentMark <;> cases (l.zeroAfter m).buildup <;> cases l.zero.buildup <;> simp
  rw [h2]
  -- stage 3
  have hx : ({ s with
      lanes := s.lanes.set n { (l.contacted s.clock).conditioned m with zero := l.zeroAfter m }
      up := { s.up with laneNotes := if l.seq.silentMark = true ∨ (l.zeroAfter m).buildup ≠ l.zero.buildup then
        s.up.laneNotes.set n true else s.up.laneNotes } } : State).lane n =
      { (l.contacted s.clock).conditioned m with zero := l.zeroAfter m } := PerLane.get_set_self _ _ _
  have hst : ({ (l.contacted s.clock).conditioned m with zero := l.zeroAfter m } : Lane).stage3 (l.recordAfter m) =
      ({ (l.contacted s.clock).conditioned m with
          zero := l.zeroAfter m, cls := l.cls.step l.params (l.recordAfter m) }, l.regimeLeft s.clock m) := rfl
  have h3 : (({ s with
      lanes := s.lanes.set n { (l.contacted s.clock).conditioned m with zero := l.zeroAfter m }
      up := { s.up with laneNotes := if l.seq.silentMark = true ∨ (l.zeroAfter m).buildup ≠ l.zero.buildup then
        s.up.laneNotes.set n true else s.up.laneNotes } } : State).stage3 n (l.recordAfter m)) = { s with
      lanes := s.lanes.set n { (l.contacted s.clock).conditioned m with
        zero := l.zeroAfter m, cls := l.cls.step l.params (l.recordAfter m) }
      up := (s.staged n m).up } := by
    unfold State.stage3
    rw [State.putLane_raiseNoteIf, hx, hst]
    unfold Lane.regimeLeft State.staged
    rw [hl]
    have ha : (l.staged s.clock m).zero = l.zeroAfter m := rfl
    dsimp only
    rw [ha]
    by_cases hd : (l.staged s.clock m).cls.active = l.cls.active
    · by_cases hs : l.seq.silentMark = true ∨ (l.zeroAfter m).buildup ≠ l.zero.buildup
      · simp [hd, hs]
      · simp [hd, hs]
    · by_cases hs : l.seq.silentMark = true ∨ (l.zeroAfter m).buildup ≠ l.zero.buildup <;> simp [hd, hs]
  dsimp only
  rw [h3, hx, hst]
  have hx3 : ({ s with
      lanes := s.lanes.set n { (l.contacted s.clock).conditioned m with
        zero := l.zeroAfter m, cls := l.cls.step l.params (l.recordAfter m) }
      up := (s.staged n m).up } : State).lane n = { (l.contacted s.clock).conditioned m with
        zero := l.zeroAfter m, cls := l.cls.step l.params (l.recordAfter m) } := PerLane.get_set_self _ _ _
  have ht : ({ s with
      lanes := s.lanes.set n { (l.contacted s.clock).conditioned m with
        zero := l.zeroAfter m, cls := l.cls.step l.params (l.recordAfter m) }
      up := (s.staged n m).up } : State).activeTarget n = s.activeTarget n := rfl
  rw [hx3, ht]
  have h4 := (Lane.stage4_eq s.clock l m (s.activeTarget n)).1
  dsimp only at h4
  have hfin : ({ s with
      lanes := s.lanes.set n { (l.contacted s.clock).conditioned m with
        zero := l.zeroAfter m, cls := l.cls.step l.params (l.recordAfter m) }
      up := (s.staged n m).up } : State).putLane n (l.staged s.clock m) = s.staged n m := by
    simp [State.putLane, State.staged, hl]
  rw [h4, hfin]

/-! ### A sample in the words of the statements -/

/-- Contact is R3's. -/
theorem State.contact_eq (s : State) (n : LaneId) :
    s.contact n = { s with
      lanes := s.lanes.set n ((s.lane n).contacted s.clock)
      up := { s.up with laneNotes :=
        if (s.lane n).seq.silentMark then s.up.laneNotes.set n true else s.up.laneNotes } } := by
  show (s.putLane n _).raiseNoteIf n _ = _
  rw [State.putLane_raiseNoteIf]
  rfl

/-- Annotation is R139's. -/
theorem State.annotate_eq (s : State) (n : LaneId) (f : Frame) : s.annotate n f = s.trailed n f := by
  have h1 : (s.lane n).reportedState = if (s.lane n).seq.mode = .auto then (s.lane n).seq.state else .idle := by
    unfold Lane.reportedState
    cases (s.lane n).seq.mode <;> rfl
  have h2 : (s.lane n).trailerGrams =
      if (s.lane n).seq.mode = .manual then (s.lane n).integ.manualTotal else (s.lane n).integ.grams := by
    unfold Lane.trailerGrams
    cases (s.lane n).seq.mode <;> rfl
  unfold State.annotate State.trailed Lane.annotate
  rw [h1, h2]
  rfl

@[simp] theorem State.atStage5_lane (s : State) (n : LaneId) (f : Frame) (l : Lane) : (s.atStage5 n f l).lane n = l :=
  PerLane.get_set_self _ _ _

/-- A sample that is heard is handled and annotated. -/
theorem exec_sample_heard {s : State} {n : LaneId} {f : Frame} {m : Meas} (h : s.Hears n f m) :
    exec (.sample n f) s =
      .next ((({ s with toLanes := s.toLanes.erase (n, f) } : State).takeSample n m).trailed n f) := by
  obtain ⟨h, ht, hm⟩ := h
  simp only [exec, execSample, State.whileRunning, if_neg (show ¬s.held = true by simp [h.1]), ht, if_true,
    State.handleMeasurement, hm]
  rw [if_neg, State.annotate_eq]
  show ¬s.transparent = true
  simp [h.2]

/-! ### The lanes that a sample touches -/

theorem State.onlyLanes_staged (s : State) {P : LaneId → Prop} {n : LaneId} (hn : P n) (m : Meas) :
    s.OnlyLanes P (s.staged n m) := by
  have h : s.staged n m = (s.putLane n ((s.lane n).staged s.clock m)).raiseNoteIf n
      (decide ((s.lane n).seq.silentMark = true ∨ ((s.lane n).staged s.clock m).zero.buildup ≠ (s.lane n).zero.buildup
        ∨ ((s.lane n).staged s.clock m).cls.active ≠ (s.lane n).cls.active)) := by
    rw [State.putLane_raiseNoteIf]
    simp only [State.staged, decide_eq_true_eq]
  rw [h]
  exact (s.onlyLanes_putLane hn _).trans (State.onlyLanes_raiseNoteIf _ hn _)

/-- A sample touches its lane and the lanes that it may release from their gang. -/
theorem State.onlyLanes_sample (s : State) {P : LaneId → Prop} {n : LaneId} (hn : P n)
    (hw : s.ReleasesIn P n (s.joining n)) (m : Meas) : s.OnlyLanes P (s.takeSample n m) := by
  by_cases hm : (s.lane n).seq.mode = .outOfService
  · unfold State.takeSample
    have hc : ((s.contact n).lane n).seq.mode = .outOfService := by
      rw [State.contact_eq]
      exact (congrArg (fun l : Lane => l.seq.mode) (PerLane.get_set_self _ _ _)).trans hm
    simp only [hc]
    exact (s.onlyLanes_contact hn).trans (State.onlyLanes_onLane _ hn _)
  by_cases hp : (s.lane n).cond.prevTimestamp = some m.timestamp
  · have hc : ((s.contact n).lane n).cond.prevTimestamp = some m.timestamp := by
      rw [State.contact_eq]
      exact (congrArg (fun l : Lane => l.cond.prevTimestamp) (PerLane.get_set_self _ _ _)).trans hp
    have hd : (((s.contact n).lane n).stage1 m).2 = none := by
      unfold Lane.stage1
      rw [hc]
      simp
    unfold State.takeSample
    dsimp only
    split
    · exact (s.onlyLanes_contact hn).trans (State.onlyLanes_onLane _ hn _)
    · rw [hd]
      exact (s.onlyLanes_contact hn).trans (State.onlyLanes_putLane _ hn _)
  · rw [State.takeSample_eq hm hp]
    have h := s.onlyLanes_staged hn m
    refine h.trans (State.onlyLanes_stage5 _ hn (h.releases hw fun o ho => ⟨o, ?_, rfl⟩) _ _ _)
    have hq : (s.staged n m).queue n = s.queue n := rfl
    have ha : (s.staged n m).activeOrder n = s.activeOrder n := rfl
    have hl : (s.staged n m).lane n = (s.lane n).staged s.clock m := PerLane.get_set_self _ _ _
    unfold State.joining at ho ⊢
    rw [hq, ha, hl] at ho
    exact ho

end Sys2Proof.Machine
end

