-- ==== Sys2Proof/WellFormed.lean ====
section
/-! DEFINITION. Which operands a command can have on the link. -/

namespace Sys2Proof

/-- A station address of a source: 1 to 126 (R136 step 3). -/
def sourceOk (b : Byte) : Bool := 1 ≤ b.toNat && b.toNat ≤ 126

/-- A payload fits a frame (R133). -/
def payloadOk (p : List Byte) : Bool := p.length ≤ 48

/-- A good frame: every check of R136 holds of it. -/
def Frame.wf (f : Frame) : Bool :=
  1 ≤ f.dest.toNat && f.dest.toNat ≤ 127 && sourceOk f.src && payloadOk f.payload
    && f.check = checkWord (headerAndPayload f.dest f.src f.kind f.payload)

/-- A request's source and the payload bytes after its kind. -/
def requestOk (src : Byte) (body : List Byte) : Bool := sourceOk src && body.length ≤ 47

/-- Operands that the link can bring (R133, R136, R1). -/
def Instr.wf : Instr → Bool
  | .powerOn _ => true
  | .resetPinAssert => true
  | .resetPinRelease _ => true
  | .startDelimiter _ => true
  | .overlongFrame _ _ => true
  | .lineBreak _ => true
  | .linkDown _ => true
  | .frameEnd _ data => data.length ≤ 54
  | .frameClassify _ frame => frame.wf
  | .sample _ frame => frame.wf && frame.kind = kindMeas && frame.payload.length = 10
  | .silenceExpiry _ => true
  | .openTimerExpiry _ => true
  | .closeTimerExpiry _ => true
  | .fallTimerExpiry _ => true
  | .settleTimerExpiry _ => true
  | .gangTimerExpiry _ => true
  | .restartBoundExpiry => true
  | .dpSelection => true
  | .upSelection => true
  | .transmitEnd _ => true
  | .ident src body => requestOk src body
  | .routeSet src body => requestOk src body
  | .routeClear src body => requestOk src body
  | .routeRead src body => requestOk src body
  | .paramSet src body => requestOk src body
  | .curveSet src body => requestOk src body
  | .commit src body => requestOk src body
  | .bankRead src body => requestOk src body
  | .laneMode src body => requestOk src body
  | .zeroCal src body => requestOk src body
  | .orderPost src body => requestOk src body
  | .orderCancel src body => requestOk src body
  | .orderList src body => requestOk src body
  | .laneRead src body => requestOk src body
  | .recordTake src body => requestOk src body
  | .scaleResult src body => requestOk src body
  | .faultClear src body => requestOk src body
  | .totalClear src body => requestOk src body
  | .countersRead src body => requestOk src body
  | .restart src body => requestOk src body
  | .unknownRequest src payload => sourceOk src && payloadOk payload

end Sys2Proof
end

