-- ==== Sys2Proof/Tests/Slice0.lean ====
section
/-! SUPPORT. Tests. Expected values are the manual's worked figures (the section stands beside each) or worked by hand
from a rule. The last part holds, for each statement with hypotheses, a state and operands that meet them. -/

namespace Sys2Proof.Tests

set_option Elab.async false

open Sys2Proof.Machine

/-! ### Small states -/

/-- The state after a command. -/
def after (c : Instr) (s : State) : State :=
  match exec c s with
  | .next t => t
  | .fault _ => s
  | .refused _ => s

/-- The payload of the newest reply. -/
def answer (c : Instr) (s : State) : List Byte := ((after c s).up.replies.getLast?.map (·.payload)).getD []

/-- The AERATED curve of section 4.8. -/
def curve : Curve where
  count := 4
  slots := (((Curve.blank.slots.set 1 { force := 4000, flow := 40000 }).set 2 { force := 9000, flow := 95000 }).set 3
    { force := 16000, flow := 160000 })

def bank : Bank := { Bank.default with curves := { settled := curve, aerated := curve, flushing := curve } }

/-- A lane with valid curves in a mode and a state. -/
def lane (m : Mode) (st : LaneState) : Lane :=
  { Lane.powerOn with
    flow := { Lane.powerOn.flow with active := bank, staged := bank }
    seq := { Lane.powerOn.seq with
      mode := m, state := st, faultCause := if st = .fault then .gateStuck else .none
      openTimer := some { start := 41200, duration := 1500 }
      closeTimer := some { start := 172100, duration := 1500 }
      settleTimer := some { start := 331100, duration := 4000 }
      fallTimer := some { start := 172900, duration := 800 }
      gangTimer := some { start := 0, duration := 60000 }
      cutoff := some { grams := 27909400, regime := .aerated, cause := .preact } } }

/-- Order 118 of section 7.7, active in compartment 1, with its reservation. -/
def order : Order where
  tag := 118
  vehicle := none
  targets := [28000]
  gangTag := 0
  gangSize := none
  noTrickle := false
  active := true
  compartment := 1
  results := []
  cancelNoted := false
  reserved := true

/-- An order that waits in a queue. -/
def queued : Order := { order with tag := 119, active := false, compartment := 0, reserved := false }

/-- Station 17, with lane 1's head at 21 and its isolation station at 40. -/
def unit (l : Lane) (q : List Order) : State :=
  { State.powerOn 17 [] with
    routes := ((Vector.replicate 16 none).set 4 (some (.head 21 .lane1))).set 9
      (some (.isolation 40 { l0 := false, l1 := true, l2 := false, l3 := false }))
    lanes := (PerLane.all Lane.powerOn).set .lane1 l
    orders := (PerLane.all []).set .lane1 q
    reservations := q.countP (·.reserved)
    controller := 5 }

/-- Lane 1 in AUTO with order 118 active. -/
def loading (st : LaneState) : State := unit (lane .auto st) [order]

/-- A measurement of ten bytes in a frame from station 21. -/
def meas (ts force pressure gate : Nat) (flags : Byte) : Frame :=
  makeFrame 5 21 0x21 (be16 ts ++ be16 force ++ be16 pressure ++ be16 gate ++ [flags, 0])

/-! ### Check word, frames and layouts (chapter 12) -/

/-- The check value of this generator, preset and bit order over the nine digits, as commonly published (log 10). -/
theorem test_check_word : checkWord [0x31, 0x32, 0x33, 0x34, 0x35, 0x36, 0x37, 0x38, 0x39] = 0x29B1#16 := by
  decide +kernel

/-- The check word of a frame, worked outside the model by a program written from R189. -/
theorem test_frame_check_word :
    checkFrame [0x05, 0x07, 0x40, 3, 1, 0, 9, 0x6C, 0x85] =
      .good { dest := 5, src := 7, kind := 0x40, payload := [1, 0, 9], check := 0x6C85 } := by decide +kernel

theorem test_signed_bytes : be16s (-2000) = [0xF8, 0x30] ∧ rd16s 0xF8 0x30 = -2000
    ∧ be32s (-698500) = [0xFF, 0xF5, 0x57, 0x7C] := by decide +kernel

theorem test_meas_limits :
    readMeas [0, 1, 0xFF, 0xFF, 0x17, 0x71, 0x03, 0xE9, 0x0D, 0xFF] =
      some { timestamp := 1, force := -1, pressure := 6000, gate := 1000,
             flags := { bellowsDown := true, levelProbe := false, headFault := true, gateMoving := true } } := by decide +kernel

theorem test_order_layout :
    decodeOrderPost [1, 2, 8, 0, 0, 1, 2, 0, 0, 0x36, 0xB0, 0, 0, 0x2E, 0xE0, 2, 0x54, 0x4B] =
      some { lane := 1, tag := 520, gangTag := 0, gangSize := 0, noTrickle := 1, targets := [14000, 12000],
             vehicle := [0x54, 0x4B] } := by decide +kernel

/-- No row of the table has bits, so no word spells a command (log 1). -/
theorem test_table_word : decodeTableWord 8 1 = none := by decide

/-! ### Well-formed operands: each check refuses an ill-formed term -/

theorem test_wf_long_frame_end : Instr.wf (.frameEnd .up (List.replicate 55 0)) = false := by decide
theorem test_wf_frame_source : Instr.wf (.frameClassify .up (makeFrame 5 127 0x32 [])) = false := by decide +kernel
theorem test_wf_frame_dest : Instr.wf (.frameClassify .up (makeFrame 0 7 0x32 [])) = false := by decide +kernel
theorem test_wf_frame_payload : Instr.wf (.frameClassify .up (makeFrame 5 7 0x32 (List.replicate 49 0))) = false := by
  decide +kernel
theorem test_wf_frame_check : Instr.wf (.frameClassify .up { makeFrame 5 7 0x32 [] with check := 0 }) = false := by
  decide +kernel
theorem test_wf_sample_kind : Instr.wf (.sample .lane1 (makeFrame 5 21 0x32 (List.replicate 10 0))) = false := by
  decide +kernel
theorem test_wf_sample_length : Instr.wf (.sample .lane1 (makeFrame 5 21 0x21 (List.replicate 9 0))) = false := by
  decide +kernel
theorem test_wf_request_source : Instr.wf (.ident 0 [0, 1]) = false := by decide
theorem test_wf_request_length : Instr.wf (.orderPost 5 (List.replicate 48 0)) = false := by decide
theorem test_wf_whole_payload : Instr.wf (.unknownRequest 5 (List.replicate 49 0)) = false := by decide
theorem test_wf_good : Instr.wf (.sample .lane1 (meas 1 2 3 4 5)) = true ∧ Instr.wf (.ident 126 [0, 1]) = true := by
  decide +kernel

/-! ### Resets (section 11.6) -/

theorem test_powerOn : after (.powerOn 17) (loading .filling) = State.powerOn 17 [] := by decide +kernel
theorem test_resetPinAssert :
    (after .resetPinAssert { loading .filling with up := { UpPort.powerOn with sending := some (meas 1 2 3 4 5) } }).up.sending
      = none := by decide +kernel
theorem test_resetPinRelease :
    (after (.resetPinRelease 127) { loading .filling with held := true }).transparent = true := by decide +kernel

/-! ### Receive lines (R134 to R137) -/

/-- A port inside a frame. -/
def receiving (buffer : List Byte) : State :=
  { State.reset with up := { UpPort.powerOn with common := { PortCommon.powerOn with receiver := .inFrame buffer } } }

theorem test_startDelimiter :
    ((after (.startDelimiter .up) (receiving [1])).port .up) =
      { receiver := .inFrame [], linkUp := true, counters := { PortCounters.zero with fragments := 1 } } := by
  decide +kernel
theorem test_overlongFrame :
    (after (.overlongFrame .up (List.replicate 55 0)) (receiving [])).port .up =
      { receiver := .hunt, linkUp := false, counters := { PortCounters.zero with formErrors := 1 } } := by decide +kernel
theorem test_lineBreak :
    (after (.lineBreak .up) (receiving [1])).port .up =
      { receiver := .hunt, linkUp := false, counters := { PortCounters.zero with fragments := 1 } } := by decide +kernel
theorem test_linkDown :
    (after (.linkDown .dp) (after (.startDelimiter .dp) State.reset)).up.unitNote = true := by decide +kernel
theorem test_frameEnd_good :
    (after (.frameEnd .up [9, 0x6C, 0x85]) (receiving [0x05, 0x07, 0x40, 3, 1, 0])).toSwitch.length = 1 := by
  decide +kernel
theorem test_frameEnd_check :
    (after (.frameEnd .up [9, 0x6C, 0x84]) (receiving [0x05, 0x07, 0x40, 3, 1, 0])).up.common.counters =
      { PortCounters.zero with checkErrors := 1 } := by decide +kernel

/-! ### Screening (section 9.5) -/

theorem test_frameClassify_blocked :
    let t := after (.frameClassify .up (makeFrame 21 5 0x32 [1, 0x03, 0x20])) (loading .filling)
    (t.lane .lane1).counters.screened = 1 ∧ t.dp.forward = [] ∧ (t.lane .lane1).seq.state = .filling := by
  decide +kernel
theorem test_frameClassify_stop :
    let f := makeFrame 21 5 0x32 [1, 0, 10]
    let t := after (.frameClassify .up f) (loading .filling)
    (t.lane .lane1).seq.state = .cutoff ∧ t.dp.forward = [f]
      ∧ t.dp.urgent = [{ lane := .lane1, kind := .headClose, dest := 21, sending := false }] := by decide +kernel

/-! ### Samples -/

/-- Lane 1 before the sample of section 4.8. -/
def metered : State :=
  let l := lane .auto .filling
  unit
    { l with
      cond := { prevTimestamp := some 100, history := List.replicate 8 11000, lastFlags := none, lastGate := none }
      zero := { l.zero with tare := 250 }
      cls := { l.cls with pressureCand := .aerated, candidate := .aerated, active := .aerated }
      flow := { l.flow with meterFactor := 10150 }
      integ := { l.integ with grams := 27499850, residue := 7300 }
      trims := { settled := 0, aerated := -1500, flushing := 0 } } [order]

/-- Section 4.8, one sample in FILLING. -/
theorem test_sample_filling :
    let t := after (.sample .lane1 (meas 120 11250 200 1000 1)) metered
    (t.lane .lane1).integ.grams = 27500081 ∧ (t.lane .lane1).integ.residue = 2780
      ∧ (t.lane .lane1).flow.flow = 115274 ∧ (t.lane .lane1).seq.state = .trickle
      ∧ t.dp.slots.get .lane1 = some { dest := 21, position := 250 } := by decide +kernel

/-- R6: the record handed on carries the four flags, GATE_MOVING among them. -/
theorem test_record_carries_four_flags :
    let m : Meas := { timestamp := 1, force := 0, pressure := 0, gate := 0, flags := readSampleFlags 0x0F }
    (Lane.powerOn.condition m true 0).2.flags =
      { bellowsDown := true, levelProbe := true, headFault := true, gateMoving := true } := by decide +kernel

/-- R81: the second of two lanes to wait takes both to FILLING. -/
theorem test_sample_releases_the_gang :
    let o := { order with gangTag := 3, gangSize := some 2 }
    let l := lane .auto .armed
    let u := unit { l with seq := { l.seq with liftMark := true } } [{ o with tag := 119, compartment := 0, reserved := false }]
    let s := { u with lanes := u.lanes.set .lane0 (lane .auto .gangWait), orders := u.orders.set .lane0 [o], reservations := 1 }
    let t := after (.sample .lane1 (meas 120 0 200 0 1)) s
    ((t.lane .lane0).seq.state, (t.lane .lane0).seq.gangTimer) = (.filling, none)
      ∧ ((t.lane .lane1).seq.state, (t.lane .lane1).seq.gangTimer) = (.filling, none)
      ∧ t.reservations = 2 ∧ (t.activeOrder .lane1).map (·.compartment) = some 1 := by decide +kernel

/-- Section 1.10, sample 7: clipped down to 3915. -/
theorem test_conditioned_sample :
    let l := lane .manual .idle
    let p := { bank.params with window := 4, spikeLimit := 1500 }
    let m : Meas := { timestamp := 174, force := -2000, pressure := 200, gate := 1000, flags := readSampleFlags 1 }
    ({ l with
        cond := { prevTimestamp := some 154, history := [5120, 6560, 4880, 5100], lastFlags := none, lastGate := none }
        zero := { l.zero with tare := 300 }
        flow := { l.flow with active := { bank with params := p } } }.stage1 m).1.cond.history = [6560, 4880, 5100, 3915]
      ∧ average [6560, 4880, 5100, 3915] = 5113 := by decide +kernel

/-- Section 2.8: the step of 40 is 5, of 31 is 3, and a candidate of 802 is clamped to 800 with BUILDUP set. -/
theorem test_zero_steps :
    tareStep 40 = 5 ∧ tareStep 31 = 3 ∧ tareStep (-7) = -1
      ∧ ({ tare := 799, tareRef := 0, holdAcc := 0, buildup := false } : ZeroTracker).settle 800 802
        = ({ tare := 800, tareRef := 0, holdAcc := 0, buildup := true }, true) := by decide +kernel

/-- Section 3.8, sample 3: the flush run reaches its parameter and FLUSHING is active at once. -/
theorem test_flush_entry :
    let p := { Params.default with window := 4, spikeLimit := 1500, flushRun := 3, regimeSettle := 40 }
    let c : Classifier := { pressureCand := .aerated, flushRun := 2, calmRun := 0, candidate := .aerated,
                            active := .aerated, settleAcc := 0 }
    c.step p { first := false, interval := 20, net := 0, clip := .up, average := 0, pressure := 330, gate := 1000,
               flags := { bellowsDown := true, levelProbe := false, headFault := false, gateMoving := false } } =
      { pressureCand := .aerated, flushRun := 3, calmRun := 0, candidate := .flushing, active := .flushing,
        settleAcc := 0 } := by decide +kernel

/-- Section 7.3: the steps of +12400, -1243 and +3 at gain 4. -/
theorem test_learn_steps : learnStep 12400 4 = 3100 ∧ learnStep (-1243) 4 = -310 ∧ learnStep 3 4 = 0
    ∧ clampTo 50000 (-49000 - learnStep 8000 16) = -50000 := by decide +kernel

/-! ### Timers (section 6.15) -/

theorem test_silenceExpiry :
    let t := after (.silenceExpiry .lane1) (loading .filling)
    (t.lane .lane1).seq.faultCause = .headSilent ∧ t.dp.urgent.map (·.dest) = [21, 40]
      ∧ (t.records.map (·.outcome)) = [.faulted] := by decide +kernel

theorem test_openTimerExpiry :
    ((after (.openTimerExpiry .lane1) { loading .filling with clock := 41200 }).lane .lane1).seq.openTimer =
      some { start := 42700, duration := 1500 } := by decide +kernel

/-- Section 6.15: the fourth expiry finds the retries spent. -/
theorem test_openTimerExpiry_spent :
    let l := lane .auto .filling
    let t := after (.openTimerExpiry .lane1) (unit { l with seq := { l.seq with openRetries := 3 } } [order])
    (t.lane .lane1).seq.faultCause = .gateStuck ∧ t.dp.urgent.map (·.dest) = [21] := by decide +kernel

theorem test_closeTimerExpiry_spent :
    let l := lane .auto .cutoff
    let t := after (.closeTimerExpiry .lane1) (unit { l with seq := { l.seq with closeRetries := 3 } } [order])
    (t.lane .lane1).seq.faultCause = .runaway ∧ t.dp.urgent.map (·.dest) = [40] := by decide +kernel

theorem test_fallTimerExpiry :
    ((after (.fallTimerExpiry .lane1) (loading .settling)).lane .lane1).seq.fallTimer = none := by decide +kernel

/-- Section 7.3: the compartment that teaches, and its reconciliation entry of section 7.7. -/
theorem test_settleTimerExpiry :
    let l := lane .auto .settling
    let t := after (.settleTimerExpiry .lane1) (unit { l with
      integ := { l.integ with grams := 28012400 }
      flow := { l.flow with meterFactor := 10150 }
      trims := { settled := 0, aerated := -1500, flushing := 0 } } [order])
    (t.lane .lane1).trims.aerated = -4600
      ∧ (t.lane .lane1).recon = some { tag := 118, metered := 28012400, factorAtEnd := 10150, reconciled := false }
      ∧ (t.records.flatMap (·.results)).map (·.learned) = [true] := by decide +kernel

theorem test_gangTimerExpiry :
    let t := after (.gangTimerExpiry .lane1) (unit (lane .auto .gangWait) [{ order with gangTag := 3, gangSize := some 2 }])
    t.records.map (·.outcome) = [.gangTimeout] ∧ t.reservations = 0 ∧ (t.lane .lane1).seq.state = .idle := by
  decide +kernel

/-! ### Transmitters (sections 8.12 and 8.13) -/

theorem test_dpSelection :
    let s := { loading .cutoff with dp := { DpPort.powerOn with
      slots := (PerLane.all none).set .lane2 (some { dest := 22, position := 1000 })
      urgent := [{ lane := .lane3, kind := .headClose, dest := 23, sending := false }] } }
    ((after .dpSelection s).dp.sending.map (·.payload)) = some [2, 0, 0]
      ∧ (after .dpSelection s).dp.slots = s.dp.slots := by decide +kernel

theorem test_upSelection_note :
    let s := loading .filling
    let t := after .upSelection { s with up := { s.up with laneNotes := (PerLane.all false).set .lane1 true } }
    (t.up.sending.map (·.payload)) = some [1, 2, 3, 0, 0, 118, 1, 0, 0, 0, 1, 0]
      ∧ t.up.laneNotes.get .lane1 = false := by decide +kernel

theorem test_transmitEnd_urgent :
    let s := { loading .cutoff with dp := { DpPort.powerOn with
      sending := some (makeFrame 21 17 0x32 [2, 0, 0])
      urgent := [{ lane := .lane1, kind := .headClose, dest := 21, sending := true }] } }
    (after (.transmitEnd .dp) s).dp.urgent = [] := by decide +kernel

/-! ### Requests -/

theorem test_ident :
    answer (.ident 5 [0, 9]) (loading .filling)
      = [1, 0, 9, 0, 0x53, 0x54, 0x01, 0xA2, 3, 4, 16, 4, 24, 17, 0] := by decide +kernel
theorem test_routeSet : (answer (.routeSet 5 [0, 9, 0, 41, 0x8C]) (loading .filling)) = [2, 0, 9, 0, 0, 41, 0x8C] := by
  decide +kernel
theorem test_routeSet_conflict :
    (answer (.routeSet 5 [0, 9, 0, 41, 0x83]) (loading .filling)) = [2, 0, 9, 7, 5, 9] := by decide +kernel
theorem test_routeClear : (answer (.routeClear 5 [0, 9, 4]) (loading .filling)) = [3, 0, 9, 3] := by decide +kernel
theorem test_routeRead : (answer (.routeRead 5 [0, 9]) (loading .filling)).drop 4 =
    List.replicate 8 0 ++ [21, 1] ++ List.replicate 8 0 ++ [40, 0x82] ++ List.replicate 12 0 := by decide +kernel
/-- The window stores 8 for 12 and answers ADJUSTED (R49). -/
theorem test_paramSet :
    answer (.paramSet 5 [0, 9, 1, 0, 0, 0, 0, 12]) (loading .filling)
      = [5, 0, 9, 1, 0, 0, 0, 0, 8, 0xFF, 0, 0, 0, 0] := by decide +kernel
/-- A gap limit below the nominal interval of 20 brings that down with it (R50). -/
theorem test_paramSet_coupled :
    answer (.paramSet 5 [0, 9, 1, 2, 0, 0, 0, 10]) (loading .filling)
      = [5, 0, 9, 1, 2, 0, 0, 0, 10, 3, 0, 0, 0, 10] := by decide +kernel
theorem test_curveSet :
    answer (.curveSet 5 [0, 9, 1, 1, 4, 0, 0, 0, 0, 3, 0x0D, 0x41]) (loading .filling) = [6, 0, 9, 4] := by
  decide +kernel
theorem test_commit :
    let s := loading .filling
    answer (.commit 5 [0, 9, 1]) s = [7, 0, 9, 0, 2] ∧ answer (.commit 5 [0, 9, 0]) s = [7, 0, 9, 5, 0, 0] := by
  decide +kernel
theorem test_bankRead :
    answer (.bankRead 5 [0, 9, 1, 0, 1, 3]) (loading .filling)
      = [8, 0, 9, 0, 0, 0, 1, 3, 4, 0x3E, 0x80, 0x00, 0x02, 0x71, 0x00] := by decide +kernel
theorem test_laneMode : answer (.laneMode 5 [0, 9, 1, 1]) (loading .filling) = [9, 0, 9, 3]
    ∧ answer (.laneMode 5 [0, 9, 1, 0]) (loading .armed) = [9, 0, 9, 0, 0, 0] := by decide +kernel
/-- R42, R87, R89: from MANUAL to AUTO the classifier and the OVERRANGE flag stay. -/
theorem test_laneMode_from_manual :
    let l := lane .manual .idle
    let s := unit { l with
      cls := { l.cls with active := .aerated, calmRun := 3 }
      flow := { l.flow with overrange := true } } []
    let t := (after (.laneMode 5 [0, 9, 1, 2]) s).lane .lane1
    t.seq.mode = .auto ∧ t.cls.active = .aerated ∧ t.cls.calmRun = 3 ∧ t.flow.overrange = true := by decide +kernel
/-- The ZERO_CAL of section 2.8. -/
theorem test_zeroCal :
    let l := lane .auto .idle
    let s := unit { l with
      zero := { tare := 800, tareRef := 0, holdAcc := 140, buildup := true }
      cond := { prevTimestamp := none, history := List.replicate 8 12, lastFlags := none, lastGate := some 0 } } []
    answer (.zeroCal 5 [0, 9, 1]) s = [0x0A, 0, 9, 0, 0x03, 0x2C, 0, 12]
      ∧ ((after (.zeroCal 5 [0, 9, 1]) s).lane .lane1).zero =
        { tare := 812, tareRef := 812, holdAcc := 0, buildup := false } := by decide +kernel
theorem test_orderPost :
    answer (.orderPost 5 [0, 9, 1, 2, 8, 0, 0, 0, 1, 0, 0, 0x36, 0xB0, 0]) (loading .filling) = [0x0B, 0, 9, 0, 1, 2] := by
  decide +kernel
theorem test_orderPost_duplicate :
    answer (.orderPost 5 [0, 9, 1, 0, 118, 0, 0, 0, 1, 0, 0, 0x36, 0xB0, 0]) (loading .filling)
      = [0x0B, 0, 9, 7, 1, 0xFF] := by decide +kernel
theorem test_orderCancel :
    answer (.orderCancel 5 [0, 9, 0, 118]) (loading .filling) = [0x0C, 0, 9, 0, 1, 3]
      ∧ answer (.orderCancel 5 [0, 9, 0, 118]) (loading .settling) = [0x0C, 0, 9, 0, 1, 4] := by decide +kernel
theorem test_orderList :
    answer (.orderList 5 [0, 9, 1]) (loading .filling) = [0x0D, 0, 9, 0, 1, 0, 0, 118, 1, 1, 1, 0, 0] := by
  decide +kernel
theorem test_laneRead : (answer (.laneRead 5 [0, 9, 1]) (loading .filling)).length = 46
    ∧ (answer (.laneRead 5 [0, 9, 1]) (loading .filling)).take 11 = [0x0E, 0, 9, 0, 2, 3, 0, 0, 0, 118, 1] := by
  decide +kernel

/-- The record of order 611 of section 10.6. -/
def held : Record where
  tag := 611
  lane := .lane1
  vehicle := none
  targetCount := 1
  outcome := .complete
  faultCause := none
  factorAtEnd := 10000
  results := [{ target := 28000, cutoffGrams := 27909400, finalGrams := 28012400, overshoot := 12400, regime := .aerated,
                cause := .preact, overrange := false, gap := false, settleCut := false, learned := true }]

/-- The unit with that one record. -/
def storing : State := { loading .filling with records := [held] }

theorem test_recordTake_first :
    answer (.recordTake 5 [0, 9, 0, 0x02, 0x63]) storing
      = [0x0F, 0, 9, 0, 0, 0, 1, 1, 0x02, 0x63, 1, 0, 0, 0, 0, 0, 0, 0, 0, 0, 1, 1, 0, 0x27, 0x10, 1] := by decide +kernel
theorem test_recordTake_last : (after (.recordTake 5 [0, 9, 1, 0, 0]) storing).records = []
    ∧ (answer (.recordTake 5 [0, 9, 1, 0, 0]) storing).take 8 = [0x0F, 0, 9, 0, 1, 1, 0, 1] := by decide +kernel

/-- Lane 1 with the reconciliation entry of section 7.7. -/
def weighed : State :=
  let l := lane .auto .idle
  unit { l with
    flow := { l.flow with meterFactor := 10150 }
    recon := some { tag := 118, metered := 28012400, factorAtEnd := 10150, reconciled := false } } []

/-- Section 7.7: 27870 kg against 28012400 g. -/
theorem test_scaleResult :
    ((after (.scaleResult 5 [0, 9, 0, 118, 0, 0, 0x6C, 0xDE]) weighed).lane .lane1).flow.meterFactor = 10125 := by
  decide +kernel
/-- Section 7.7, the clamp: 10980 + 439 is held at 11000. -/
theorem test_scaleResult_clamp :
    correctedFactor { tag := 1, metered := 10000000, factorAtEnd := 10980, reconciled := false } 10400000 16 10980 = 11000 := by
  decide +kernel
theorem test_faultClear :
    let l := lane .auto .fault
    let s := unit { l with cond := { l.cond with lastGate := some 20 } } []
    answer (.faultClear 5 [0, 9, 1]) s = [0x11, 0, 9, 0, 0] := by decide +kernel
theorem test_totalClear :
    let l := lane .manual .idle
    let s := unit { l with integ := { l.integ with manualTotal := 65538, manualFull := true } } []
    answer (.totalClear 5 [0, 9, 1]) s = [0x12, 0, 9, 0, 0, 1, 0, 2] := by decide +kernel
theorem test_countersRead :
    answer (.countersRead 5 [0, 9, 5, 1]) { loading .filling with unanswered := 3, wrongPort := 4 }
      = [0x13, 0, 9, 0, 5, 0, 0, 0, 3, 0, 0, 0, 4, 0, 1] := by decide +kernel
/-- Section 11.7: refused without force, accepted without a reply with it. -/
theorem test_restart :
    answer (.restart 5 [0, 9, 0]) (loading .filling) = [0x14, 0, 9, 3]
      ∧ (after (.restart 5 [0, 9, 1]) (loading .filling)).up.replies = []
      ∧ ((after (.restart 5 [0, 9, 1]) (loading .filling)).dp.urgent.map (·.dest)) = [21, 40] := by decide +kernel
theorem test_restartBoundExpiry :
    let s := after (.restart 5 [0, 9, 1]) (loading .filling)
    answer .restartBoundExpiry s = [0x14, 0, 9, 0, 1, 3, 2, 0, 0, 0, 0, 118, 1, 0, 0, 0, 0, 0, 0] := by decide +kernel
theorem test_unknownRequest : answer (.unknownRequest 5 [0x15, 0, 9]) (loading .filling) = [0x15, 0, 9, 10] := by
  decide +kernel

/-! ### The step and the interface -/

theorem test_step_takes_the_front :
    step { State.reset with pending := [.powerOn 5, .dpSelection] } = .next (State.powerOn 5 [.dpSelection]) := rfl
theorem test_withFetchWord : State.reset.withFetchWord 8 1 = State.reset := by decide +kernel

/-! ### States that meet the hypotheses of the statements

One theorem per statement that has hypotheses, under the statement's name; where a statement has several clauses, one part
for each, at a boundary value where there is one. -/

theorem works (l : Lane) (q : List Order) : (unit l q).Working := ⟨rfl, rfl⟩

/-- A unit that answers whatever request comes next. -/
def Ready (s : State) : Prop := ∀ src payload, s.Answers src payload

theorem answers (l : Lane) (q : List Order) : Ready (unit l q) := fun _ _ => ⟨⟨rfl, rfl⟩, Nat.zero_lt_succ 3, rfl⟩

/-- A property of every lane, lane by lane. -/
theorem every {P : LaneId → Prop} (h0 : P .lane0) (h1 : P .lane1) (h2 : P .lane2) (h3 : P .lane3) : ∀ n, P n := by
  intro n
  cases n <;> assumption

/-- A property of every regime, regime by regime. -/
theorem everyRegime {P : Regime → Prop} (h0 : P .settled) (h1 : P .aerated) (h2 : P .flushing) : ∀ r, P r := by
  intro r
  cases r <;> assumption

/-- A filling lane beside three idle ones, as an engine of either sort: what every property of one lane is shown of. -/
theorem filling_every {P : Lane → Prop} (h : P (lane .auto .filling)) (h' : P Lane.powerOn) :
    ∀ n, P ((loading .filling).lane n) := every h' h h' h'

/-- A unit at work whose next step is a settled lane's timer. -/
def working : State := { loading .filling with pending := [.openTimerExpiry .lane1] }

theorem working_steps : ∃ t, step working = .next t := ⟨_, rfl⟩

theorem witness_EmptyQueuePassesOneMillisecond :
    State.reset.pending = [] ∧ State.reset.held = false ∧ { State.reset with held := true }.held = true := by decide

theorem witness_HeldResetPinStopsTheUnit : ∃ c : Instr, { loading .filling with held := true }.held = true
    ∧ (∀ straps, c ≠ .powerOn straps) ∧ (∀ straps, c ≠ .resetPinRelease straps) ∧ c ≠ .resetPinAssert :=
  ⟨.dpSelection, rfl, by simp, by simp, by simp⟩

theorem witness_QueueDepthsCountersAndUrgentEntriesKept :
    ∃ t, working.QueuesBounded ∧ working.CountersBounded ∧ working.UrgentDistinct ∧ step working = .next t := by
  refine ⟨_, ⟨by decide, by decide, by decide, every ?_ ?_ ?_ ?_⟩, ⟨?_, ?_, by decide, by decide, ?_⟩, ?_, rfl⟩
  · decide
  · decide
  · decide
  · decide
  · exact ⟨by decide, by decide, by decide, by decide⟩
  · exact ⟨by decide, by decide, by decide, by decide⟩
  · exact filling_every (P := fun l => l.counters.Bounded) (by unfold LaneCounters.Bounded; decide)
      (by unfold LaneCounters.Bounded; decide)
  · exact List.nodup_nil

theorem witness_TareStaysInTheDriftBand : ∃ t, (∀ n, (working.lane n).TareInBand) ∧ step working = .next t :=
  ⟨_, filling_every (P := Lane.TareInBand) (by unfold Lane.TareInBand; decide) (by unfold Lane.TareInBand; decide), rfl⟩

theorem flows_bounded (b : Bank) (h : b = bank ∨ b = Bank.default) : b.FlowsBounded := by
  rcases h with rfl | rfl <;> exact everyRegime (by decide +kernel) (by decide +kernel) (by decide +kernel)

theorem witness_MeteringAndTrimsStayInRange :
    ∃ t, (∀ n, (working.lane n).MeterInRange) ∧ (∀ n, (working.lane n).TrimsInLimit) ∧ step working = .next t := by
  refine ⟨_, filling_every (P := Lane.MeterInRange) ?_ ?_, filling_every (P := Lane.TrimsInLimit) ?_ ?_, rfl⟩
  · exact ⟨by decide, by decide, by decide, by decide, by decide, by decide, flows_bounded _ (.inl rfl),
      flows_bounded _ (.inl rfl)⟩
  · exact ⟨by decide, by decide, by decide, by decide, by decide, by decide, flows_bounded _ (.inr rfl),
      flows_bounded _ (.inr rfl)⟩
  · exact everyRegime (by decide) (by decide) (by decide)
  · exact everyRegime (by decide) (by decide) (by decide)

theorem witness_HistoryAndRegimesStayConsistent :
    ∃ t, (∀ n, (working.lane n).HistoryInWindow) ∧ (∀ n, (working.lane n).RegimesConsistent) ∧ step working = .next t :=
  ⟨_, filling_every (P := Lane.HistoryInWindow) ⟨by decide, nofun, nofun⟩ ⟨by decide, nofun, nofun⟩,
    filling_every (P := Lane.RegimesConsistent) (by unfold Lane.RegimesConsistent; decide)
      (by unfold Lane.RegimesConsistent; decide), rfl⟩

theorem params_inRange (p : Params) (h : p = bank.params ∨ p = Bank.default.params) : p.InRange := by
  rcases h with rfl | rfl
  all_goals
    unfold Params.InRange
    repeat' apply And.intro
    all_goals decide +kernel

theorem witness_ParametersStayInRange : ∃ t, (∀ n, (working.lane n).BanksInRange) ∧ step working = .next t :=
  ⟨_, filling_every (P := Lane.BanksInRange) ⟨params_inRange _ (.inl rfl), params_inRange _ (.inl rfl)⟩
    ⟨params_inRange _ (.inr rfl), params_inRange _ (.inr rfl)⟩, rfl⟩

/-- The unit's two route entries. -/
theorem working_routes {i : Nat} {e : RouteEntry} (h : working.routeAt i = some e) :
    (i = 4 ∧ e = .head 21 .lane1) ∨ (i = 9 ∧ e = .isolation 40 { l0 := false, l1 := true, l2 := false, l3 := false }) := by
  have hi := State.routeAt_lt h
  have all : ∀ k : Fin 16, working.routeAt k = none
      ∨ (k = 4 ∧ working.routeAt k = some (.head 21 .lane1))
      ∨ (k = 9 ∧ working.routeAt k = some (.isolation 40 { l0 := false, l1 := true, l2 := false, l3 := false })) := by
    decide +kernel
  rcases all ⟨i, hi⟩ with k | ⟨hk, k⟩ | ⟨hk, k⟩
  · rw [h] at k; cases k
  · exact .inl ⟨congrArg Fin.val hk, Option.some.inj (h.symm.trans k)⟩
  · exact .inr ⟨congrArg Fin.val hk, Option.some.inj (h.symm.trans k)⟩

theorem witness_RouteTableStaysConsistent : ∃ t, working.RoutesSound ∧ step working = .next t := by
  refine ⟨_, ⟨fun i e h => ?_, fun i j hij e f he hf => ?_⟩, rfl⟩
  · rcases working_routes h with ⟨-, rfl⟩ | ⟨-, rfl⟩
    · exact ⟨by decide, by decide, by decide⟩
    · exact ⟨by decide, by decide, by decide, .lane1, rfl⟩
  · rcases working_routes he with ⟨rfl, rfl⟩ | ⟨rfl, rfl⟩ <;> rcases working_routes hf with ⟨rfl, rfl⟩ | ⟨rfl, rfl⟩
    · exact absurd rfl hij
    · exact ⟨by decide, rfl, rfl⟩
    · exact ⟨by decide, rfl, rfl⟩
    · exact absurd rfl hij

theorem counts_bounded (b : Bank) (h : b = bank ∨ b = Bank.default) : b.CountsBounded := by
  rcases h with rfl | rfl <;> exact everyRegime (by decide) (by decide) (by decide)

theorem witness_LanesInServiceStayRoutedAndCalibrated : ∃ t, working.InServiceSound ∧ step working = .next t := by
  refine ⟨_, every ⟨⟨?_, ?_, nofun⟩, fun h => absurd rfl h⟩ ⟨⟨?_, ?_, nofun⟩, fun _ => ⟨?_, ?_⟩⟩
    ⟨⟨?_, ?_, nofun⟩, fun h => absurd rfl h⟩ ⟨⟨?_, ?_, nofun⟩, fun h => absurd rfl h⟩, rfl⟩
  case refine_5 => decide +kernel
  case refine_6 => decide +kernel
  case refine_3 => exact counts_bounded _ (.inl rfl)
  case refine_4 => exact counts_bounded _ (.inl rfl)
  all_goals exact counts_bounded _ (.inr rfl)

theorem witness_ReservationsMatchTheLanes : ∃ t, working.StoreSound ∧ step working = .next t := by
  refine ⟨_, ⟨every ?_ ?_ ?_ ?_, by decide +kernel, by decide +kernel⟩, rfl⟩
  case refine_2 =>
    refine ⟨fun h => absurd rfl h, rfl, fun o h => by cases h; rfl, fun o h => ?_, fun o h => absurd h List.not_mem_nil⟩
    rw [show working.queue .lane1 = [order] from rfl, List.mem_singleton] at h
    subst h
    nofun
  all_goals exact ⟨fun _ => ⟨rfl, rfl⟩, rfl, nofun, nofun, nofun⟩

theorem witness_CausesMatchTheLaneState : ∃ t, (∀ n, (working.lane n).CausesMatch) ∧ step working = .next t :=
  ⟨_, filling_every (P := Lane.CausesMatch) (by unfold Lane.CausesMatch; decide) (by unfold Lane.CausesMatch; decide), rfl⟩

/-- In transparent mode, and while a forced RESTART drains. -/
theorem witness_TransparentAndDrainingUnitsStayQuiet :
    (∃ s t : State, s.transparent = true ∧ s.TransparentQuiet ∧ step s = .next t)
      ∧ ∃ s t : State, s.restart.isSome = true ∧ s.DrainWithoutPositions ∧ step s = .next t :=
  ⟨⟨State.powerOn 127 [.dpSelection], _, rfl, fun _ => ⟨every ⟨rfl, rfl⟩ ⟨rfl, rfl⟩ ⟨rfl, rfl⟩ ⟨rfl, rfl⟩, rfl, rfl, rfl, rfl⟩,
      rfl⟩,
    ⟨{ loading .filling with restart := some { src := 5, tagHi := 0, tagLo := 9, force := 1, bound := ⟨0, 50⟩ } }, _, rfl,
      fun _ => every rfl rfl rfl rfl, rfl⟩⟩

theorem witness_ResetMeetsEveryKeptProperty : ∃ s, s = State.powerOn 17 [] ∨ s = State.reset := ⟨_, .inl rfl⟩

theorem witness_StartDelimiterAndQuietLineMoveThePort :
    let up := after (.startDelimiter .up) State.reset
    State.reset.held = false ∧ (State.reset.port .up).linkUp = false ∧ up.held = false ∧ (up.port .up).linkUp = true := by
  decide +kernel

/-- In HUNT; with the buffer full and no byte more; with one byte too many. -/
theorem witness_OverlongFrameIsDroppedAndCounted :
    let b := List.replicate 54 (0 : Byte)
    (State.reset.held = false ∧ (State.reset.port .up).receiver = .hunt)
      ∧ ((receiving b).held = false ∧ ((receiving b).port .up).receiver = .inFrame b ∧ b.length ≤ 54
        ∧ b.length + ([] : List Byte).length ≤ 54 ∧ 54 < b.length + [(0 : Byte)].length) := by decide +kernel

theorem witness_LineBreakMakesAFragment :
    (State.reset.held = false ∧ (State.reset.port .up).receiver = .hunt)
      ∧ ((receiving []).held = false ∧ ((receiving []).port .up).receiver = .inFrame []) := by decide +kernel

/-- In HUNT; a buffer that the data bytes fill to 54; one that they overflow. -/
theorem witness_FrameEndChecksTheBuffer :
    let b := List.replicate 53 (0 : Byte)
    (State.reset.held = false ∧ (State.reset.port .up).receiver = .hunt)
      ∧ ((receiving b).held = false ∧ ((receiving b).port .up).receiver = .inFrame b ∧ b.length ≤ 54
        ∧ (b ++ [0]).length ≤ 54 ∧ 54 < (b ++ [0, 0]).length) := by decide +kernel

/-- A frame given alone, and one that waits first of its port. -/
theorem witness_TransparentModeForwardsEveryFrame :
    let f := makeFrame 40 5 0x32 []
    let s := State.powerOn 0 []
    let u := { State.powerOn 127 [] with toSwitch := [(.up, f), (.dp, f)] }
    (s.held = false ∧ s.transparent = true ∧ inTurn (s.waitingAt .up) (.up, f) = true)
      ∧ (u.held = false ∧ u.transparent = true ∧ inTurn (u.waitingAt .dp) (.dp, f) = true) := by decide +kernel

/-- A request for the unit, another frame for it, a frame for elsewhere, and GATE to the head of a lane in MANUAL; a
frame before which another of its port waits. -/
theorem witness_UpFramesAreClassified :
    let s := unit (lane .manual .idle) []
    let f := makeFrame 17 5 0x40 []
    s.Working ∧ inTurn (s.waitingAt .up) (.up, f) = true ∧ f.dest = s.address ∧ f.kind = 0x40
      ∧ (makeFrame 17 5 0x32 []).kind ≠ 0x40
      ∧ ((makeFrame 40 5 0x32 []).dest ≠ s.address ∧ s.headLane (makeFrame 40 5 0x32 []).dest = none)
      ∧ ((makeFrame 21 5 0x32 []).dest ≠ s.address ∧ (makeFrame 21 5 0x32 []).kind = 0x32
        ∧ s.headLane (makeFrame 21 5 0x32 []).dest = some .lane1 ∧ (s.lane .lane1).seq.mode ≠ .auto)
      ∧ inTurn ({ s with toSwitch := [(.up, makeFrame 40 5 0x32 [])] }.waitingAt .up) (.up, f) = false :=
  ⟨works _ _, by decide +kernel⟩

/-- A measurement of 10 and of 9 bytes, a request, another frame for the unit, a frame for elsewhere; a frame before
which another of its port waits. -/
theorem witness_DpFramesAreClassified :
    let s := loading .filling
    let f := meas 1 2 3 4 5
    s.Working ∧ inTurn (s.waitingAt .dp) (.dp, f) = true ∧ f.kind = 0x21 ∧ s.headLane f.src = some .lane1
      ∧ f.payload.length = 10 ∧ (makeFrame 5 21 0x21 (List.replicate 9 0)).payload.length ≠ 10
      ∧ ((makeFrame 17 21 0x40 []).kind ≠ 0x21 ∧ (makeFrame 17 21 0x40 []).dest = s.address)
      ∧ (makeFrame 17 21 0x41 []).kind ≠ 0x40
      ∧ (s.headLane (makeFrame 5 22 0x21 []).src = none ∧ (makeFrame 5 22 0x21 []).dest ≠ s.address)
      ∧ inTurn ({ s with toSwitch := [(.dp, meas 0 2 3 4 5)] }.waitingAt .dp) (.dp, f) = false :=
  ⟨works _ _, by decide +kernel⟩

/-- POSITION 21, one above the closed band. -/
theorem witness_AutoLaneBlocksOpeningCommands :
    let s := loading .filling
    let f := makeFrame 21 5 0x32 [1, 0, 21]
    s.Working ∧ inTurn (s.waitingAt .up) (.up, f) = true ∧ f.dest ≠ s.address ∧ f.kind = 0x32
      ∧ s.headLane f.dest = some .lane1 ∧ (s.lane .lane1).seq.mode = .auto
      ∧ ¬∃ hi lo : Byte, f.payload = [2, hi, lo]
        ∨ (f.payload = [1, hi, lo] ∧ rd16 hi lo ≤ (s.lane .lane1).params.closedBand) := by
  refine ⟨works _ _, rfl, by decide +kernel, by decide +kernel, by decide +kernel, rfl, ?_⟩
  rintro ⟨hi, lo, h | ⟨h, h'⟩⟩
  · exact absurd (List.cons.inj h).1 (by decide)
  · rw [show (makeFrame 21 5 0x32 [1, 0, 21]).payload = ([1, 0, 21] : List Byte) by decide +kernel] at h
    have tail := (List.cons.inj h).2
    have hhi : hi = 0 := (List.cons.inj tail).1.symm
    have hlo : lo = 21 := (List.cons.inj (List.cons.inj tail).2).1.symm
    subst hhi hlo
    exact absurd h' (by decide +kernel)

/-- POSITION 20, at the closed band, in FILLING and in CUTOFF; CLOSE in TRICKLE. -/
theorem witness_ClosingCommandIsForwardedAndStopsAFillingLane :
    let s := loading .filling
    let f := makeFrame 21 5 0x32 [1, 0, 20]
    s.Working ∧ inTurn (s.waitingAt .up) (.up, f) = true ∧ f.dest ≠ s.address ∧ f.kind = 0x32
      ∧ s.headLane f.dest = some .lane1 ∧ (s.lane .lane1).seq.mode = .auto ∧ f.payload = [1, 0, 20] ∧ rd16 0 20 ≤ (s.lane .lane1).params.closedBand
      ∧ (makeFrame 21 5 0x32 [2, 0, 0]).payload = [2, 0, 0]
      ∧ (s.lane .lane1).seq.state = .filling ∧ ((loading .trickle).lane .lane1).seq.state = .trickle
      ∧ ((loading .cutoff).lane .lane1).seq.state ≠ .filling ∧ ((loading .cutoff).lane .lane1).seq.state ≠ .trickle :=
  ⟨works _ _, by decide +kernel⟩

/-- The sample of section 4.8 as it is read. -/
def sampled : Meas where
  timestamp := 120
  force := 11250
  pressure := 200
  gate := 1000
  flags := { bellowsDown := true, levelProbe := false, headFault := false, gateMoving := false }

/-- No measurement waits before it. -/
theorem hears (l : Lane) (q : List Order) : (unit l q).Hears .lane1 (meas 120 11250 200 1000 1) sampled :=
  ⟨works _ _, rfl, by decide +kernel⟩

theorem witness_OutOfServiceSampleOnlyKeepsContact :
    let s := unit (lane .outOfService .idle) []
    s.Hears .lane1 (meas 120 11250 200 1000 1) sampled ∧ (s.lane .lane1).seq.mode = .outOfService := ⟨hears _ _, rfl⟩

/-- Lane 1 with a previous timestamp. -/
def timed (m : Mode) (st : LaneState) (ts : BitVec 16) : Lane :=
  { lane m st with cond := { (lane m st).cond with prevTimestamp := some ts } }

theorem witness_DuplicateSampleIsDiscarded :
    let s := unit (timed .manual .idle 120) []
    s.Hears .lane1 (meas 120 11250 200 1000 1) sampled ∧ (s.lane .lane1).seq.mode ≠ .outOfService
      ∧ (s.lane .lane1).cond.prevTimestamp = some sampled.timestamp := ⟨hears _ _, by decide +kernel⟩

/-- A later sample and a first one. -/
theorem witness_ManualSampleIsMetered :
    let s := unit (timed .manual .idle 100) []
    let first := unit (lane .manual .idle) []
    (s.Hears .lane1 (meas 120 11250 200 1000 1) sampled ∧ (s.lane .lane1).seq.mode = .manual
        ∧ (s.lane .lane1).cond.prevTimestamp = some 100 ∧ (s.lane .lane1).cond.prevTimestamp ≠ some sampled.timestamp)
      ∧ (first.Hears .lane1 (meas 120 11250 200 1000 1) sampled ∧ (first.lane .lane1).seq.mode = .manual
        ∧ (first.lane .lane1).cond.prevTimestamp = none
        ∧ (first.lane .lane1).cond.prevTimestamp ≠ some sampled.timestamp) :=
  ⟨⟨hears _ _, by decide +kernel⟩, hears _ _, by decide +kernel⟩

/-- In FILLING and in TRICKLE. -/
theorem witness_PouringSampleIsDecidedInOrder :
    (metered.Hears .lane1 (meas 120 11250 200 1000 1) sampled
        ∧ (metered.lane .lane1).seq.mode = .auto ∧ (metered.lane .lane1).seq.state = .filling
        ∧ (metered.lane .lane1).cond.prevTimestamp ≠ some sampled.timestamp ∧ metered.activeOrder .lane1 = some order)
      ∧ ((loading .trickle).Hears .lane1 (meas 120 11250 200 1000 1) sampled
        ∧ ((loading .trickle).lane .lane1).seq.mode = .auto ∧ ((loading .trickle).lane .lane1).seq.state = .trickle
        ∧ ((loading .trickle).lane .lane1).cond.prevTimestamp ≠ some sampled.timestamp
        ∧ (loading .trickle).activeOrder .lane1 = some order) :=
  ⟨⟨hears _ _, by decide +kernel⟩, hears _ _, by decide +kernel⟩

/-- Every state with an active order, its cut-off data with it; IDLE with an order that waits, and with none. -/
theorem witness_ArmedSampleTestsThePreconditions :
    (∀ st : LaneState, st ≠ .filling → st ≠ .trickle →
        (loading st).Hears .lane1 (meas 120 11250 200 1000 1) sampled
          ∧ ((loading st).lane .lane1).seq.mode = .auto ∧ ((loading st).lane .lane1).seq.state = st
          ∧ ((loading st).lane .lane1).cond.prevTimestamp ≠ some sampled.timestamp
          ∧ (loading st).activeOrder .lane1 = some order
          ∧ ((loading st).lane .lane1).seq.cutoff = some { grams := 27909400, regime := .aerated, cause := .preact })
      ∧ ((unit (lane .auto .idle) [queued]).Hears .lane1 (meas 120 11250 200 1000 1) sampled
        ∧ (unit (lane .auto .idle) [queued]).queue .lane1 = [queued] ∧ queued.active = false)
      ∧ (unit (lane .auto .idle) []).queue .lane1 = [] :=
  ⟨fun _ _ _ => ⟨hears _ _, rfl, rfl, nofun, rfl, rfl⟩, ⟨hears _ _, rfl, rfl⟩, rfl⟩

/-- A sample that is taken; one of a lane that may join gang 3 while another lane waits in gang 4, and while it waits in
gang 3 but the sample's lane is filling; one before which another measurement waits. -/
theorem witness_SampleLeavesOtherLanesAndTheUnitAlone :
    let f := meas 120 11250 200 1000 1
    let waiting := fun (g : Nat) (u : State) =>
      { u with lanes := u.lanes.set .lane0 (lane .auto .gangWait), orders := u.orders.set .lane0 [{ order with gangTag := g }] }
    let armed := waiting 4 (unit (lane .auto .armed) [{ order with gangTag := 3 }])
    let filling := waiting 3 (loading .filling)
    let late := { metered with toLanes := [(.lane0, f)] }
    ((∃ t, exec (.sample .lane1 f) metered = .next t) ∧ (.lane0 : LaneId) ≠ .lane1 ∧ metered.joining .lane1 = none)
      ∧ ((∃ t, exec (.sample .lane1 f) armed = .next t)
        ∧ ¬∃ o, armed.joining .lane1 = some o ∧ o.gangTag ≠ 0 ∧ armed.Waits o.gangTag .lane0)
      ∧ (filling.Waits 3 .lane0 ∧ filling.joining .lane1 = none)
      ∧ (∃ t, exec (.sample .lane1 f) late = .next t) ∧ inTurn late.toLanes (.lane1, f) = false := by
  refine ⟨⟨⟨_, rfl⟩, by decide, rfl⟩, ⟨⟨_, rfl⟩, ?_⟩, ⟨⟨rfl, rfl, _, rfl, rfl⟩, rfl⟩, ⟨_, rfl⟩, by decide +kernel⟩
  rintro ⟨o, ho, -, -, -, p, hp, hg⟩
  obtain rfl := Option.some.inj ho
  obtain rfl := Option.some.inj hp
  exact absurd hg (by decide)

/-- A silence timer that runs, in every state of a lane in AUTO. -/
theorem witness_SilenceExpiryMarksTheLane : ∀ st : LaneState,
    (loading st).held = false ∧ ((loading st).lane .lane1).seq.silenceTimer = some { start := 0, duration := 100 }
      ∧ ((loading st).lane .lane1).seq.mode = .auto ∧ ((loading st).lane .lane1).seq.state = st
      ∧ (loading st).activeOrder .lane1 = some order
      ∧ ((loading st).lane .lane1).seq.cutoff = some { grams := 27909400, regime := .aerated, cause := .preact } := by
  intro st
  exact ⟨rfl, rfl, rfl, rfl, rfl, rfl⟩

/-- Retries left, and spent. -/
theorem witness_OpenTimerExpiryRetriesOrFaults :
    let s := loading .filling
    let l := s.lane .lane1
    s.held = false ∧ l.seq.openTimer = some { start := 41200, duration := 1500 } ∧ l.seq.mode = .auto
      ∧ l.seq.state = .filling ∧ l.seq.openRetries < l.params.gateRetries
      ∧ ∃ spent : State, spent.held = false ∧ (spent.lane .lane1).seq.openTimer ≠ none
        ∧ (spent.lane .lane1).seq.mode = .auto ∧ (spent.lane .lane1).seq.state = .trickle
        ∧ (spent.lane .lane1).params.gateRetries ≤ (spent.lane .lane1).seq.openRetries
        ∧ spent.activeOrder .lane1 = some order :=
  ⟨rfl, rfl, rfl, rfl, by decide,
    unit { lane .auto .trickle with seq := { (lane .auto .trickle).seq with openRetries := 3 } } [order], by decide +kernel⟩

theorem witness_CloseTimerExpiryRetriesOrFaults :
    let s := loading .cutoff
    let l := s.lane .lane1
    s.held = false ∧ l.seq.closeTimer = some { start := 172100, duration := 1500 } ∧ l.seq.mode = .auto
      ∧ l.seq.state = .cutoff ∧ l.seq.closeRetries < l.params.gateRetries
      ∧ ∃ spent : State, spent.held = false ∧ (spent.lane .lane1).seq.closeTimer ≠ none
        ∧ (spent.lane .lane1).seq.mode = .auto ∧ (spent.lane .lane1).seq.state = .cutoff
        ∧ (spent.lane .lane1).params.gateRetries ≤ (spent.lane .lane1).seq.closeRetries
        ∧ spent.activeOrder .lane1 = some order ∧ (spent.lane .lane1).seq.cutoff ≠ none :=
  ⟨rfl, rfl, rfl, rfl, by decide,
    unit { lane .auto .cutoff with seq := { (lane .auto .cutoff).seq with closeRetries := 3 } } [order], by decide +kernel⟩

theorem witness_FallAndGangTimerExpiries :
    ((loading .settling).held = false
        ∧ ((loading .settling).lane .lane1).seq.fallTimer = some { start := 172900, duration := 800 })
      ∧ ((loading .gangWait).held = false
        ∧ ((loading .gangWait).lane .lane1).seq.gangTimer = some { start := 0, duration := 60000 }
        ∧ ((loading .gangWait).lane .lane1).seq.mode = .auto ∧ ((loading .gangWait).lane .lane1).seq.state = .gangWait
        ∧ (loading .gangWait).activeOrder .lane1 = some order) := by decide +kernel

/-- A lane in SETTLING, and the orders and cut causes of the five ways on. -/
theorem witness_SettleTimerExpiryEndsSettling :
    let s := loading .settling
    s.held = false ∧ (s.lane .lane1).seq.settleTimer = some { start := 331100, duration := 4000 }
      ∧ (s.lane .lane1).seq.mode = .auto ∧ (s.lane .lane1).seq.state = .settling ∧ s.activeOrder .lane1 = some order
      ∧ (s.lane .lane1).seq.cutoff = some { grams := 27909400, regime := .aerated, cause := .preact }
      ∧ (unit (lane .auto .settling) [{ order with cancelNoted := true }]).activeOrder .lane1
        = some { order with cancelNoted := true }
      ∧ ¬order.compartment < order.targets.length
      ∧ order.compartment < { order with targets := [28000, 1] }.targets.length := by decide +kernel

/-- The restart record of a forced RESTART. -/
def draining : State :=
  { loading .cutoff with
    restart := some { src := 5, tagHi := 0, tagLo := 9, force := 1, bound := { start := 0, duration := 50 } }
    dp := { DpPort.powerOn with
      sending := some (makeFrame 21 17 0x32 [2, 0, 0])
      urgent := [{ lane := .lane1, kind := .headClose, dest := 21, sending := true }] } }

theorem witness_RestartCompletesByBoundOrByTransmission :
    draining.held = false ∧ draining.restart = some { src := 5, tagHi := 0, tagLo := 9, force := 1, bound := ⟨0, 50⟩ }
      ∧ draining.dp.sending = some (makeFrame 21 17 0x32 [2, 0, 0])
      ∧ draining.dp.urgent = [{ lane := .lane1, kind := .headClose, dest := 21, sending := true }] := by decide +kernel

/-- An urgent entry; a slot's command; a forwarded frame; nothing. -/
theorem witness_DpSelectionServesUrgentFirst :
    let e : UrgentEntry := { lane := .lane3, kind := .headClose, dest := 23, sending := false }
    let s := { State.reset with dp := { DpPort.powerOn with urgent := [e] } }
    let c : SlotCommand := { dest := 21, position := 1000 }
    let u := { State.reset with dp := { DpPort.powerOn with slots := (PerLane.all none).set .lane1 (some c) } }
    let f := meas 1 2 3 4 5
    let v := { State.reset with dp := { DpPort.powerOn with forward := [f], lastServed := .own } }
    (s.held = false ∧ s.dp.sending = none ∧ s.dp.urgent = [] ++ e :: [] ∧ e.sending = false)
      ∧ (u.held = false ∧ u.dp.sending = none ∧ u.dp.urgent = []
        ∧ lanesAfter u.dp.lastLane = [.lane0] ++ .lane1 :: [.lane2, .lane3] ∧ u.dp.slots.get .lane0 = none
        ∧ u.dp.slots.get .lane1 = some c ∧ u.dp.lastServed = .forward)
      ∧ (v.held = false ∧ v.dp.sending = none ∧ v.dp.urgent = [] ∧ v.dp.forward = [f] ∧ v.dp.lastServed = .own)
      ∧ (State.reset.held = false ∧ State.reset.dp.sending = none ∧ State.reset.dp.urgent = []
        ∧ State.reset.dp.forward = [] ∧ ∀ m, State.reset.dp.slots.get m = none) :=
  ⟨by decide +kernel, by decide +kernel, by decide +kernel, rfl, rfl, rfl, rfl, every rfl rfl rfl rfl⟩

/-- A reply; a lane's note; the unit's note; a forwarded frame; nothing. -/
theorem witness_UpSelectionAlternatesOwnAndForwardedFrames :
    let r : Reply := { dest := 5, payload := [] }
    let s := { loading .filling with up := { UpPort.powerOn with replies := [r] } }
    let u := { loading .filling with up := { UpPort.powerOn with laneNotes := (PerLane.all false).set .lane0 true } }
    let w := { loading .filling with up := { UpPort.powerOn with unitNote := true, lastNote := .lane .lane3 } }
    let f := meas 1 2 3 4 5
    let v := { loading .filling with up := { UpPort.powerOn with forward := [f], lastServed := .own } }
    (s.held = false ∧ s.up.sending = none ∧ s.up.replies = [r] ∧ s.up.lastServed = .forward)
      ∧ (u.held = false ∧ u.up.sending = none ∧ u.up.replies = [] ∧ u.controller ≠ 0
        ∧ notesAfter u.up.lastNote = [] ++ .lane .lane0 :: [.lane .lane1, .lane .lane2, .lane .lane3, .unit]
        ∧ u.up.laneNotes.get .lane0 = true ∧ u.up.lastServed = .forward)
      ∧ (w.held = false ∧ w.up.sending = none ∧ w.up.replies = [] ∧ w.controller ≠ 0
        ∧ notesAfter w.up.lastNote = [] ++ .unit :: [.lane .lane0, .lane .lane1, .lane .lane2, .lane .lane3]
        ∧ w.up.unitNote = true ∧ w.up.lastServed = .forward)
      ∧ (v.held = false ∧ v.up.sending = none ∧ v.up.forward = [f] ∧ v.up.lastServed = .own)
      ∧ (State.reset.held = false ∧ State.reset.up.sending = none ∧ State.reset.up.forward = []
        ∧ State.reset.up.replies = [] ∧ State.reset.controller = 0) := by decide +kernel

theorem witness_TransmitEndFreesTheTransmitter :
    let e : UrgentEntry := { lane := .lane3, kind := .headClose, dest := 23, sending := false }
    let s := { draining with dp := { draining.dp with urgent := draining.dp.urgent ++ [e] } }
    (State.reset.held = false ∧ State.reset.dp.sending = none)
      ∧ (s.held = false ∧ s.dp.sending = some (makeFrame 21 17 0x32 [2, 0, 0]) ∧ e ∈ s.dp.urgent ∧ e.sending = false) := by
  decide +kernel

/-- Four replies waiting; transparent mode; another request waiting before it. -/
theorem witness_RequestsWithoutRoomOrStationAreNotAnswered :
    let r : Reply := { dest := 5, payload := [] }
    let s := { loading .filling with up := { UpPort.powerOn with replies := [r, r, r, r] } }
    let u := { loading .filling with toResponder := [(7, [1, 0, 9])] }
    asks (.ident 5 [0, 9]) = some (5, [1, 0, 9])
      ∧ (s.held = false ∧ s.transparent = false ∧ inTurn s.toResponder (5, [1, 0, 9]) = true ∧ 4 ≤ s.up.replies.length)
      ∧ ((State.powerOn 0 []).held = false ∧ (State.powerOn 0 []).transparent = true)
      ∧ (u.held = false ∧ inTurn u.toResponder (5, [1, 0, 9]) = false) := by decide +kernel

theorem witness_AnsweredRequestGetsOneReplyAndSetsTheController :
    asks (.ident 5 [0, 9]) = some (5, [1, 0, 9]) ∧ Ready (loading .filling)
      ∧ ([1, 0, 9] : List Byte).head? ≠ some 0x14 := ⟨rfl, answers _ _, by decide⟩

/-- A kind the unit does not know, answered UNKNOWN. -/
theorem witness_RefusedRequestChangesNothing :
    ∃ (t : State) (r : Reply), asks (.unknownRequest 5 [0x15, 0, 9]) = some (5, [0x15, 0, 9]) ∧ Ready (loading .filling)
      ∧ exec (.unknownRequest 5 [0x15, 0, 9]) (loading .filling) = .next t
      ∧ t.up.replies = (loading .filling).up.replies ++ [r] ∧ 2 ≤ (r.payload.getD 3 0).toNat :=
  ⟨_, { dest := 5, payload := [0x15, 0, 9, 10] }, rfl, answers _ _, rfl, by decide +kernel, by decide⟩

/-- Two bytes; kind 21; ORDER_POST one byte short of its shortest, ending before its second target, before its vehicle
tag length and before its last character. -/
theorem witness_DecodingStepsOfARequest :
    let short : List Byte := 0x0B :: List.replicate 9 0
    let incomplete := fun (count : Byte) (rest : List Byte) =>
      rest.length < 4 * count.toNat + 1 + (rest.getD (4 * count.toNat) 0).toNat
    Ready (loading .filling) ∧ ([1, 0] : List Byte).length < 3
      ∧ (3 ≤ ([21, 0, 9] : List Byte).length ∧ 20 < (([21, 0, 9] : List Byte).getD 0 0).toNat)
      ∧ (3 ≤ short.length ∧ (short.getD 0 0).toNat ≤ 20
        ∧ short.length < 3 + [0, 0, 3, 1, 0, 6, 10, 1, 4, 2, 1, 8, 2, 1, 1, 3, 6, 1, 1, 2, 1].getD (short.getD 0 0).toNat 0)
      ∧ (incomplete 2 [0, 0, 0, 1, 0, 0, 0] ∧ incomplete 1 [0, 0, 0, 1] ∧ incomplete 1 [0, 0, 0, 1, 2, 0x41])
      ∧ asks (.ident 5 [0, 9]) = some (5, [1, 0, 9]) := ⟨answers _ _, by decide⟩

theorem witness_IdentAndRouteReadReport : Ready (loading .filling) := answers _ _

/-- A free address and role; the entry of a head in service; a conflict of isolation sets; an index out of range. -/
theorem witness_RouteSetAndRouteClearWriteTheTable :
    Ready (loading .filling)
      ∧ ((15 : Byte).toNat ≤ 15 ∧ 1 ≤ (126 : Byte).toNat ∧ (126 : Byte).toNat ≤ 126
        ∧ (126 : Byte) ≠ (loading .filling).address ∧ routeEntryOf 126 2 = some (.head 126 .lane2))
      ∧ ((loading .filling).routeAt 4 = some (.head 21 .lane1)
        ∧ ((loading .filling).lane .lane1).seq.mode ≠ .outOfService)
      ∧ ((9 : Nat) ≠ 15 ∧ ∃ o, (loading .filling).routeAt 9 = some o ∧ routeAddress o = 40)
      ∧ 15 < (16 : Byte).toNat := by
  refine ⟨answers _ _, by decide +kernel, by decide +kernel, ⟨by decide, _, rfl, rfl⟩, by decide⟩

/-- Lane 1 with a pending commit. -/
def committing : State :=
  let l := lane .auto .filling
  unit { l with flow := { l.flow with commitPending := true } } [order]

theorem witness_ParamSetBringsValuesIntoRange :
    Ready (loading .filling) ∧ 3 < (4 : Byte).toNat ∧ 27 < (28 : Byte).toNat ∧ laneOf (1 : Byte).toNat = some .lane1
      ∧ (27 : Byte).toNat ≤ 27 ∧ ((loading .filling).lane .lane1).flow.commitPending = false
      ∧ Ready committing ∧ (committing.lane .lane1).flow.commitPending = true :=
  ⟨answers _ _, by decide, by decide, rfl, by decide, rfl, answers _ _, rfl⟩

theorem witness_CurveSetWritesOneSlotAndBankReadReadsIt :
    Ready (loading .filling) ∧ 3 < (4 : Byte).toNat ∧ laneOf (3 : Byte).toNat = some .lane3 ∧ regimeOf (2 : Byte).toNat = some .flushing
      ∧ ((1 : Byte).toNat ≤ 1 ∧ (15 : Byte).toNat < 16 ∧ (27 : Byte).toNat < 28) ∧ 1 < (2 : Byte).toNat :=
  ⟨answers _ _, by decide, rfl, rfl, by decide, by decide⟩

/-- A pending lane; a staged curve without points; valid curves in FILLING and in IDLE. -/
theorem witness_CommitChecksAndAppliesTheStagedBank :
    Ready committing ∧ 3 < (4 : Byte).toNat ∧ laneOf (1 : Byte).toNat = some .lane1 ∧ (committing.lane .lane1).flow.commitPending = true
      ∧ curveFails (Bank.default.curves.settled.slots.toList.take Bank.default.curves.settled.count) = some 0
      ∧ (∀ g : Regime, curveFails ((bank.curves.get g).slots.toList.take (bank.curves.get g).count) = none)
      ∧ ((loading .filling).lane .lane1).seq.state ≠ .idle ∧ ((loading .idle).lane .lane1).seq.state = .idle :=
  ⟨answers _ _, by decide, rfl, rfl, by decide +kernel,
    everyRegime (by decide +kernel) (by decide +kernel) (by decide +kernel), by decide, rfl⟩

/-- The present mode; a lane without curves asked into service and a filling one out of it; one that may leave, with a
pending bank; one that may enter; one in MANUAL. -/
theorem witness_LaneModeChangesTheMode :
    let l := lane .auto .armed
    let leaving := unit { l with flow := { l.flow with commitPending := true } } [order]
    Ready (loading .filling) ∧ 3 < (4 : Byte).toNat ∧ laneOf (1 : Byte).toNat = some .lane1 ∧ modeOf (2 : Byte).toNat = some .auto
      ∧ ((loading .filling).lane .lane1).seq.mode = .auto
      ∧ (((loading .filling).lane .lane0).seq.mode = .outOfService
        ∧ ((loading .filling).lane .lane0).flow.active.curvesValid = false)
      ∧ (Ready leaving ∧ (leaving.lane .lane1).seq.mode = .auto ∧ (leaving.lane .lane1).seq.state = .armed
        ∧ (leaving.lane .lane1).flow.commitPending = true ∧ modeOf (1 : Byte).toNat = some .manual)
      ∧ ((unit (lane .outOfService .idle) []).lane .lane1).flow.active.curvesValid = true
      ∧ (unit (lane .outOfService .idle) []).headOf .lane1 ≠ none
      ∧ (Ready (unit (lane .manual .idle) []) ∧ ((unit (lane .manual .idle) []).lane .lane1).seq.mode = .manual
        ∧ (.auto : Mode) ≠ .manual ∧ modeOf (0 : Byte).toNat = some .outOfService) :=
  ⟨answers _ _, by decide, rfl, rfl, rfl, by decide +kernel, ⟨answers _ _, by decide +kernel⟩, by decide +kernel,
    by decide +kernel, answers _ _, rfl, by decide, rfl⟩

/-- A gate at the closed band and a history of one entry. -/
theorem witness_ZeroCalAndTotalClear :
    let l := lane .auto .idle
    let s := unit { l with cond := { l.cond with history := [1], lastGate := some 20 } } []
    Ready s ∧ 3 < (4 : Byte).toNat ∧ laneOf (1 : Byte).toNat = some .lane1 ∧ (s.lane .lane1).seq.state = .idle
      ∧ (s.lane .lane1).cond.lastGate = some 20 ∧ 20 ≤ (s.lane .lane1).params.closedBand
      ∧ (s.lane .lane1).cond.history ≠ [] := ⟨answers _ _, by decide +kernel⟩

theorem witness_FaultClearReturnsTheLaneToIdle :
    let l := lane .auto .fault
    let s := unit { l with cond := { l.cond with lastGate := some 20 } } [queued]
    Ready s ∧ 3 < (4 : Byte).toNat ∧ laneOf (1 : Byte).toNat = some .lane1 ∧ (s.lane .lane1).seq.mode = .auto
      ∧ (s.lane .lane1).seq.state = .fault ∧ (s.lane .lane1).seq.silentMark = false
      ∧ (s.lane .lane1).cond.lastGate = some 20 ∧ 20 ≤ (s.lane .lane1).params.closedBand
      ∧ s.queue .lane1 = [queued] ∧ queued.active = false
      ∧ ((loading .filling).lane .lane1).seq.state ≠ .fault := ⟨answers _ _, by decide +kernel⟩

/-- Arguments at the ends of their ranges. -/
def posted : OrderPostArgs where
  lane := 1
  tag := 65535
  gangTag := 15
  gangSize := 4
  noTrickle := 1
  targets := [1, 1000000, 1, 1]
  vehicle := [0x20, 0x7E, 0x20, 0x7E, 0x20, 0x7E, 0x20, 0x7E]

/-- Room for the order; a tag of 0; its tag in use; its gang tag with another size; four orders queued; a lane in MANUAL. -/
theorem witness_OrderPostChecksInOrderAndQueuesTheOrder :
    Ready (loading .filling) ∧ 3 < (4 : Byte).toNat ∧ laneOf posted.lane = some .lane1
      ∧ (posted.tag < 65536 ∧ posted.gangTag < 256 ∧ posted.gangSize < 256 ∧ posted.noTrickle < 256
        ∧ posted.targets.length < 256 ∧ (∀ x ∈ posted.targets, x < 4294967296) ∧ posted.vehicle.length < 256)
      ∧ ¬1 ≤ { posted with tag := 0 }.tag
      ∧ (1 ≤ posted.tag ∧ posted.gangTag ≤ 15 ∧ 2 ≤ posted.gangSize ∧ posted.gangSize ≤ 4 ∧ posted.noTrickle ≤ 1
        ∧ 1 ≤ posted.targets.length ∧ posted.targets.length ≤ 4
        ∧ (∀ x ∈ posted.targets, 1 ≤ x ∧ x ≤ 1000000) ∧ posted.vehicle.length ≤ 8
        ∧ ∀ c ∈ posted.vehicle, 0x20 ≤ c.toNat ∧ c.toNat ≤ 0x7E)
      ∧ ((loading .filling).lane .lane1).seq.mode = .auto ∧ ((loading .filling).queue .lane1).length < 4
      ∧ { order with tag := 65535 }.tag = posted.tag
      ∧ ({ order with gangTag := 15, gangSize := some 2 }.gangTag = posted.gangTag ∧ some 2 ≠ some posted.gangSize)
      ∧ 4 ≤ ((unit (lane .auto .filling) [order, queued, queued, queued]).queue .lane1).length
      ∧ ((unit (lane .manual .idle) []).lane .lane1).seq.mode ≠ .auto :=
  ⟨answers _ _, by decide +kernel⟩

theorem witness_LaneReadAndOrderListReport :
    Ready (loading .gangWait) ∧ 3 < (4 : Byte).toNat ∧ laneOf (1 : Byte).toNat = some .lane1
      ∧ ((loading .gangWait).lane .lane1).seq.mode = .auto ∧ ((loading .gangWait).lane .lane1).seq.state = .gangWait
      ∧ (loading .gangWait).activeOrder .lane1 = some order := ⟨answers _ _, by decide +kernel⟩

/-- Tag 0; a tag that no queue holds; a queued order; an active one, in every state. -/
theorem witness_OrderCancelActsByTheOrdersState :
    let s := unit (lane .auto .filling) [order, queued]
    Ready s ∧ rd16 0 0 = 0 ∧ rd16 0 118 = 118 ∧ rd16 0 119 = 119
      ∧ (∀ n, ∀ o ∈ s.queue n, o.tag ≠ 120) ∧ (∃ o ∈ s.queue .lane1, o.tag = 119)
      ∧ (∀ m, laneNum m < laneNum .lane1 → ∀ o ∈ s.queue m, o.tag ≠ 118)
      ∧ s.activeOrder .lane1 = some order ∧ order.tag = 118 ∧ order.tag ≠ 119
      ∧ ∀ st : LaneState, Ready (loading st) ∧ ((loading st).lane .lane1).seq.state = st
        ∧ (loading st).activeOrder .lane1 = some order := by
  refine ⟨answers _ _, rfl, rfl, rfl, every (by decide +kernel) (by decide +kernel) (by decide +kernel) (by decide +kernel),
    by decide +kernel, every (by decide +kernel) (by decide +kernel) (by decide +kernel) (by decide +kernel), rfl, rfl, by decide,
    fun _ => ⟨answers _ _, rfl, rfl⟩⟩

/-- Part 5; an empty store; another tag; a part the record has not; the record itself. -/
theorem witness_RecordTakeReadsAndRemovesTheOldestRecord :
    Ready storing ∧ 4 < (5 : Byte).toNat ∧ (loading .filling).records = [] ∧ storing.records = [held]
      ∧ (rd16 0x02 0x64 ≠ 0 ∧ rd16 0x02 0x64 ≠ held.tag) ∧ rd16 0x02 0x63 = held.tag
      ∧ held.results.length < (2 : Byte).toNat ∧ (1 : Byte).toNat ≤ held.results.length :=
  ⟨fun _ _ => ⟨⟨rfl, rfl⟩, by decide, rfl⟩, by decide +kernel⟩

theorem witness_ScaleResultCorrectsTheMeterFactor :
    Ready weighed ∧ rd16 0 118 = 118 ∧ 4000000 < rd32 0x00 0x3D 0x09 0x01 ∧ rd32 0x00 0x3D 0x09 0x00 ≤ 4000000
      ∧ (weighed.lane .lane1).recon = some { tag := 118, metered := 28012400, factorAtEnd := 10150, reconciled := false }
      ∧ (∀ m, laneNum m < laneNum .lane1 → (weighed.lane m).recon = none)
      ∧ (∀ n e, (State.reset.lane n).recon = some e → e.tag ≠ 118) := by
  refine ⟨answers _ _, by decide +kernel, by decide +kernel, by decide +kernel, rfl,
    every (by decide +kernel) (by decide +kernel) (by decide +kernel) (by decide +kernel),
    every nofun nofun nofun nofun⟩

theorem witness_CountersReadReportsAndClears :
    Ready (loading .filling) ∧ (0 : Byte) = 0 ∧ 5 < (6 : Byte).toNat ∧ (4 : Byte).toNat = laneNum .lane3 + 1 :=
  ⟨answers _ _, by decide⟩

/-- Force 2; a restart under way; no lane filling; a lane filling, without and with force. -/
theorem witness_RestartIsRefusedImmediateOrForced :
    Ready (loading .filling) ∧ 1 < (2 : Byte).toNat ∧ Ready draining ∧ draining.restart ≠ none
      ∧ (Ready (loading .armed) ∧ (loading .armed).restart = none ∧ ∀ n, ¬((loading .armed).lane n).Runs)
      ∧ ((loading .filling).restart = none ∧ ∃ n, ((loading .filling).lane n).Runs) :=
  ⟨answers _ _, by decide, fun _ _ => ⟨⟨rfl, rfl⟩, by decide, rfl⟩, nofun,
    ⟨answers _ _, rfl, every (by decide +kernel) (by decide +kernel) (by decide +kernel) (by decide +kernel)⟩,
    rfl, .lane1, rfl, .inl rfl⟩

/-- The largest values that the layouts hold. -/
theorem witness_LayoutsAreReadBackWhole :
    (255 : Nat) < 256 ∧ (65535 : Nat) < 65536 ∧ (4294967295 : Nat) < 4294967296 ∧ (-32768 : Int) ≤ -32768
      ∧ posted.lane < 256 ∧ posted.targets.length < 256 ∧ (∀ x ∈ posted.targets, x < 4294967296)
      ∧ posted.vehicle.length < 256 ∧ routeEntryOf 40 0x8F ≠ none := by decide +kernel

end Sys2Proof.Tests
end

section
/-! SUPPORT. Zero tracking (chapter 2) on the tracker alone, and the kept drift band of O7. -/

namespace Sys2Proof.Machine

/-! ### The drift band (R19) -/

/-- The part of `Lane.TareInBand` that speaks of the tracker and the drift limit alone. -/
def ZeroTracker.InBand (z : ZeroTracker) (limit : Nat) : Prop :=
  -32768 ≤ z.tareRef ∧ z.tareRef ≤ 32767 ∧ driftLow z.tareRef limit ≤ z.tare ∧ z.tare ≤ driftHigh z.tareRef limit

theorem Lane.tareInBand_iff (l : Lane) : l.TareInBand ↔ l.zero.InBand l.params.driftLimit := Iff.rfl

/-- The drift band of a 16-bit reference holds the reference itself. -/
theorem driftLow_le_ref {ref : Int} (h : -32768 ≤ ref) (limit : Nat) : driftLow ref limit ≤ ref := by
  unfold driftLow
  omega

theorem ref_le_driftHigh {ref : Int} (h : ref ≤ 32767) (limit : Nat) : ref ≤ driftHigh ref limit := by
  unfold driftHigh
  omega

theorem ZeroTracker.settle_tareRef (z : ZeroTracker) (limit : Nat) (candidate : Int) :
    (z.settle limit candidate).1.tareRef = z.tareRef := by
  unfold ZeroTracker.settle
  repeat' split
  all_goals rfl

/-- A candidate settled against a band, whatever it is, gives a tare within that band (R23, R29). -/
theorem ZeroTracker.settle_inBand {z : ZeroTracker} (hlow : -32768 ≤ z.tareRef) (hhigh : z.tareRef ≤ 32767)
    (limit : Nat) (candidate : Int) : (z.settle limit candidate).1.InBand limit := by
  have band : driftLow z.tareRef limit ≤ driftHigh z.tareRef limit :=
    (driftLow_le_ref hlow limit).trans (ref_le_driftHigh hhigh limit)
  unfold ZeroTracker.InBand
  rw [ZeroTracker.settle_tareRef]
  refine ⟨hlow, hhigh, ?_⟩
  unfold ZeroTracker.settle
  split
  · exact ⟨le_rfl, band⟩
  · split
    · exact ⟨band, le_rfl⟩
    · exact ⟨not_lt.mp ‹_›, not_lt.mp ‹_›⟩

/-- A tracker whose tare is its 16-bit reference is within every band. -/
theorem ZeroTracker.inBand_of_tare_eq_ref {z : ZeroTracker} (heq : z.tare = z.tareRef) (hlow : -32768 ≤ z.tareRef)
    (hhigh : z.tareRef ≤ 32767) (limit : Nat) : z.InBand limit := by
  refine ⟨hlow, hhigh, ?_⟩
  rw [heq]
  exact ⟨driftLow_le_ref hlow limit, ref_le_driftHigh hhigh limit⟩

theorem sat16_bounds (x : Int) : -32768 ≤ sat16 x ∧ sat16 x ≤ 32767 := by
  unfold sat16
  omega

/-! ### The three acts that write a tare -/

/-- Stage 2 moves the tare within the band of the active drift limit (R22, R23). -/
theorem Lane.TareInBand.stage2 {l : Lane} (h : l.TareInBand) (r : SampleRecord) : (l.stage2 r).1.TareInBand := by
  have ⟨hlow, hhigh, _⟩ := h
  unfold Lane.stage2
  split
  · dsimp only
    split
    · exact h
    · exact (Lane.tareInBand_iff _).mpr
        (ZeroTracker.settle_inBand (z := { l.zero with holdAcc := 0 }) hlow hhigh l.params.driftLimit _)
  · exact h

/-- Application brings the tare into the band of the staged drift limit, which becomes the active one (R29). -/
theorem Lane.TareInBand.applyBank {l : Lane} (h : l.TareInBand) : l.applyBank.1.TareInBand := by
  obtain ⟨hlow, hhigh, -⟩ := h
  exact (Lane.tareInBand_iff _).mpr
    (ZeroTracker.settle_inBand (z := { l.zero with holdAcc := 0 }) hlow hhigh l.flow.staged.params.driftLimit _)

/-- Calibration makes the saturated sum both tare and reference (R26). -/
theorem Lane.tareInBand_calibrate (l : Lane) : l.calibrate.TareInBand := by
  obtain ⟨hlow, hhigh⟩ := sat16_bounds (l.zero.tare + average l.cond.history)
  exact l.calibrate.tareInBand_iff.mpr (ZeroTracker.inBand_of_tare_eq_ref rfl hlow hhigh _)

theorem tareInBand_powerOn : Lane.powerOn.TareInBand :=
  Lane.powerOn.tareInBand_iff.mpr (ZeroTracker.inBand_of_tare_eq_ref rfl (by decide) (by decide) _)

/-! ### Every other act -/

theorem Lane.TareInBand.learn {l : Lane} (h : l.TareInBand) (cancelNoted : Bool) (r : CompResult) :
    (l.learn cancelNoted r).1.TareInBand := by
  unfold Lane.learn
  split <;> exact h

theorem Lane.TareInBand.reconcile {l : Lane} (h : l.TareInBand) (e : ReconEntry) (netKg : Nat) :
    (l.reconcile e netKg).1.TareInBand := by
  unfold Lane.reconcile
  dsimp only
  split <;> exact h

/-- The drift band under everything a command can do to a lane engine: three acts write a tare, the others leave tare,
reference and active drift limit alone. -/
theorem tareInBand_laneOps (routed : LaneId → Prop) : LaneOps routed fun _ l => l.TareInBand where
  stage2 _ _ r h := h.stage2 r
  apply _ _ _ h := h.applyBank
  calibrate _ l _ := l.tareInBand_calibrate
  powerOn _ := tareInBand_powerOn
  learn _ _ b r h := h.learn b r
  reconcile _ _ e kg h := h.reconcile e kg
  seq _ _ _ h e _ := by rw [e]; exact h
  mode _ _ _ _ h := h
  counters _ _ _ _ h := h
  marks _ _ _ _ h := h
  recon _ _ _ h := h
  report _ _ _ _ h := h
  condition _ _ _ _ _ _ h := h
  stage3 _ _ _ h := h
  stage4 _ _ _ _ h := h
  enterService _ _ h := h
  noFlow _ _ h := h
  overrange _ _ _ h := h
  silenced _ _ h := h
  fill _ _ h := h
  total _ _ h := h
  restarted _ _ _ h := h
  param _ _ _ _ _ _ h := h
  slot _ _ _ _ _ _ _ _ _ _ _ h := h
  commit _ _ _ h := h

/-- Settles O7: the drift band is a property of lane engines that every step keeps. -/
theorem tareStaysInTheDriftBand : Obligations.TareStaysInTheDriftBand :=
  fun s _ h hstep => step_every (tareInBand_laneOps fun n => (s.headOf n).isSome = true) h hstep

end Sys2Proof.Machine
end

section
/-! SUPPORT. ZERO_CAL and TOTAL_CLEAR (R26 to R28, R66): requests that begin with a lane number, and O51. -/

namespace Sys2Proof.Machine

/-! ### A lane number as the first argument -/

theorem laneOf_above {k : Nat} (h : 3 < k) : laneOf k = none := by
  obtain ⟨j, rfl⟩ := Nat.exists_eq_add_of_le' h
  rfl

/-- Arguments that begin with the number of a lane are decided on that lane. -/
theorem withLaneArg_of {s : State} {lane : Byte} {n : LaneId} (h : laneOf lane.toNat = some n) (rest : List Byte)
    (f : LaneId → Decision) :
    (withArgs s (decodeByteArg (lane :: rest)) fun num => withLane s num f) = f n :=
  withLane_of h f

/-- Arguments that begin with a number above 3 are BAD_ARG. -/
theorem withLaneArg_above {s : State} {lane : Byte} (h : 3 < lane.toNat) (rest : List Byte) (f : LaneId → Decision) :
    (withArgs s (decodeByteArg (lane :: rest)) fun num => withLane s num f) = refuse s .badArg := by
  show withLane s lane.toNat f = _
  unfold withLane
  rw [laneOf_above h]

/-! ### ZERO_CAL -/

/-- The conditions of R27. -/
theorem Lane.mayCalibrate_iff (l : Lane) :
    l.mayCalibrate = true ↔ (l.seq.mode = .auto → l.seq.state = .idle ∨ l.seq.state = .fault)
      ∧ (∃ g, l.cond.lastGate = some g ∧ g ≤ l.params.closedBand) ∧ l.cond.history ≠ [] := by
  unfold Lane.mayCalibrate
  rw [Bool.and_eq_true, Bool.and_eq_true, and_assoc]
  refine and_congr ?_ (and_congr ?_ ?_)
  · cases l.seq.mode <;> simp
  · cases l.cond.lastGate <;> simp
  · simp

/-- ZERO_CAL on a lane in range: calibrated where R27 allows it, STATE where not. -/
theorem decideZeroCal_of {s : State} {lane : Byte} {n : LaneId} (hn : laneOf lane.toNat = some n) (src hi lo : Byte)
    (rest : List Byte) :
    decideZeroCal { src, tagHi := hi, tagLo := lo, args := lane :: rest } s =
      if (s.lane n).mayCalibrate then
        accept (s.onLane n Lane.calibrate) (be16s (s.lane n).calibration ++ be16s (average (s.lane n).cond.history))
      else refuse s .state :=
  withLaneArg_of hn rest _

theorem decideZeroCal_above {s : State} {lane : Byte} (h : 3 < lane.toNat) (src hi lo : Byte) (rest : List Byte) :
    decideZeroCal { src, tagHi := hi, tagLo := lo, args := lane :: rest } s = refuse s .badArg :=
  withLaneArg_above h rest _

/-! ### TOTAL_CLEAR -/

theorem decideTotalClear_of {s : State} {lane : Byte} {n : LaneId} (hn : laneOf lane.toNat = some n)
    (src hi lo : Byte) (rest : List Byte) :
    decideTotalClear { src, tagHi := hi, tagLo := lo, args := lane :: rest } s =
      accept (s.onLane n Lane.clearTotal) (be32 (s.lane n).integ.manualTotal) :=
  withLaneArg_of hn rest _

theorem decideTotalClear_above {s : State} {lane : Byte} (h : 3 < lane.toNat) (src hi lo : Byte) (rest : List Byte) :
    decideTotalClear { src, tagHi := hi, tagLo := lo, args := lane :: rest } s = refuse s .badArg :=
  withLaneArg_above h rest _

/-- OVERRANGE after TOTAL_CLEAR: cleared in MANUAL only (R61, R66). -/
theorem Lane.clearTotal_eq (l : Lane) :
    l.clearTotal = { l with
      integ := { l.integ with manualTotal := 0, manualResidue := 0, manualFull := false }
      flow := { l.flow with overrange := if l.seq.mode = Mode.manual then false else l.flow.overrange } } := by
  have overrange : (l.flow.overrange && l.seq.mode != .manual)
      = if l.seq.mode = Mode.manual then false else l.flow.overrange := by
    cases l.seq.mode <;> simp
  unfold Lane.clearTotal
  rw [overrange]

/-! ### The two commands -/

theorem exec_zeroCal {s : State} {src hi lo : Byte} {args : List Byte} (h : s.Answers src (0x0A :: hi :: lo :: args)) :
    exec (.zeroCal src (hi :: lo :: args)) s =
      .next ((decideZeroCal { src, tagHi := hi, tagLo := lo, args } (s.asked src (0x0A :: hi :: lo :: args))).deliver
        0x0A { src, tagHi := hi, tagLo := lo, args }) :=
  congrArg Host.Outcome.next (State.request_of_answers h decideZeroCal)

theorem exec_totalClear {s : State} {src hi lo : Byte} {args : List Byte}
    (h : s.Answers src (0x12 :: hi :: lo :: args)) :
    exec (.totalClear src (hi :: lo :: args)) s =
      .next ((decideTotalClear { src, tagHi := hi, tagLo := lo, args } (s.asked src (0x12 :: hi :: lo :: args))).deliver
        0x12 { src, tagHi := hi, tagLo := lo, args }) :=
  congrArg Host.Outcome.next (State.request_of_answers h decideTotalClear)

/-- Settles O51: each request is its owner's decision, and each decision turns on the lane number and, for ZERO_CAL, on
R27. -/
theorem zeroCalAndTotalClear : Obligations.ZeroCalAndTotalClear := by
  refine ⟨fun s src hi lo lane rest habove => ⟨fun ha => ?badZero, fun ha => ?badTotal⟩,
    fun s src hi lo lane rest n hn => ?onLane⟩
  case badZero =>
    rw [exec_zeroCal ha, decideZeroCal_above habove, refuse_deliver]
    rfl
  case badTotal =>
    rw [exec_totalClear ha, decideTotalClear_above habove, refuse_deliver]
    rfl
  case onLane =>
    refine ⟨fun ha hmay => ?accepted, fun ha hmay => ?refused, fun ha => ?cleared⟩
    case accepted =>
      rw [exec_zeroCal ha, decideZeroCal_of hn, State.asked_lane, if_pos ((Lane.mayCalibrate_iff _).mpr hmay),
        accept_deliver]
      rfl
    case refused =>
      rw [exec_zeroCal ha, decideZeroCal_of hn, State.asked_lane, if_neg (mt (Lane.mayCalibrate_iff _).mp hmay),
        refuse_deliver]
      rfl
    case cleared =>
      rw [exec_totalClear ha, decideTotalClear_of hn, State.onLane, Lane.clearTotal_eq, accept_deliver]
      rfl

end Sys2Proof.Machine
end

section
/-! SUPPORT. COMMIT (R47, R52, R53): the walk along a staged curve, the first failing curve of a bank, the application
at once, and O49. -/

namespace Sys2Proof.Machine

/-! ### The first failure of a sequence of checks -/

/-- `r` is the first index at which `P` fails, `none` where it holds at all of them. -/
def FirstFailure (P : Nat → Prop) : Option Nat → Prop
  | none => ∀ i, P i
  | some i => ¬P i ∧ ∀ j, j < i → P j

theorem FirstFailure.here {P : Nat → Prop} (h : ¬P 0) : FirstFailure P (some 0) :=
  ⟨h, fun _ hlt => absurd hlt (Nat.not_lt_zero _)⟩

/-- A first check that holds moves the first failure of the later ones by one index. -/
theorem FirstFailure.later {P : Nat → Prop} {r : Option Nat} (h0 : P 0) (h : FirstFailure (fun k => P (k + 1)) r) :
    FirstFailure P (r.map (· + 1)) := by
  cases r with
  | none => exact fun i => Nat.casesOn i h0 h
  | some k => exact ⟨h.1, fun j hlt => Nat.casesOn j (fun _ => h0) (fun j hj => h.2 j (Nat.lt_of_succ_lt_succ hj)) hlt⟩

/-! ### The walk of R52 -/

/-- Breakpoint `k` of `rest`, which stands after `prev`, is above the one before it in force and not below it in flow;
an index past the end passes. -/
def RisesAt (prev : Breakpoint) (rest : List Breakpoint) (k : Nat) : Prop :=
  ∀ b, rest[k]? = some b → ∃ a, (prev :: rest)[k]? = some a ∧ a.force < b.force ∧ a.flow ≤ b.flow

theorem risesAt_cons_zero {prev b : Breakpoint} {rest : List Breakpoint} :
    RisesAt prev (b :: rest) 0 ↔ ¬(b.force ≤ prev.force ∨ b.flow < prev.flow) := by
  simp [RisesAt]

theorem walkFails_succ (prev : Breakpoint) (i : Nat) (rest : List Breakpoint) :
    walkFails prev (i + 1) rest = (walkFails prev i rest).map (· + 1) := by
  induction rest generalizing prev i with
  | nil => rfl
  | cons b rest ih =>
    unfold walkFails
    split
    · rfl
    · exact ih b (i + 1)

/-- The walk finds the first breakpoint that does not rise. -/
theorem walkFails_firstFailure (prev : Breakpoint) (rest : List Breakpoint) :
    FirstFailure (RisesAt prev rest) (walkFails prev 0 rest) := by
  induction rest generalizing prev with
  | nil => exact fun _ _ hb => nomatch hb
  | cons b rest ih =>
    unfold walkFails
    split
    · exact .here fun h => risesAt_cons_zero.mp h ‹_›
    · rw [walkFails_succ]
      exact .later (risesAt_cons_zero.mpr ‹_›) (ih b)

/-! ### The check of a curve (R47, R52) -/

/-- Breakpoint `i` of a curve passes: the first is force 0 and flow 0, each later one rises; where there is none, the
curve has its two breakpoints before it. -/
def PointPasses (points : List Breakpoint) (i : Nat) : Prop :=
  match points[i]?, i with
  | some b, 0 => b.force = 0 ∧ b.flow = 0
  | some b, k + 1 => ∃ a, points[k]? = some a ∧ a.force < b.force ∧ a.flow ≤ b.flow
  | none, _ => 2 ≤ i

theorem pointPasses_of_length_le {points : List Breakpoint} {i : Nat} (h : points.length ≤ i) :
    PointPasses points i ↔ 2 ≤ i := by
  unfold PointPasses
  rw [List.getElem?_eq_none h]

theorem pointPasses_zero {b : Breakpoint} {rest : List Breakpoint} :
    PointPasses (b :: rest) 0 ↔ ¬(b.force ≠ 0 ∨ b.flow ≠ 0) := by
  simp [PointPasses]

/-- A later index of a curve of at least two breakpoints passes where the walk does. -/
theorem pointPasses_succ {a b : Breakpoint} {rest : List Breakpoint} {k : Nat} :
    PointPasses (a :: b :: rest) (k + 1) ↔ RisesAt a (b :: rest) k := by
  unfold PointPasses RisesAt
  rw [List.getElem?_cons_succ]
  cases h : (b :: rest)[k]? with
  | some c => simp
  | none =>
    have : 1 ≤ k := by
      have := List.getElem?_eq_none_iff.mp h
      rw [List.length_cons] at this
      omega
    simpa using this

theorem curveFails_single (b : Breakpoint) :
    curveFails [b] = if b.force ≠ 0 ∨ b.flow ≠ 0 then some 0 else some 1 := rfl

theorem curveFails_cons_cons (a b : Breakpoint) (rest : List Breakpoint) :
    curveFails (a :: b :: rest) = if a.force ≠ 0 ∨ a.flow ≠ 0 then some 0 else walkFails a 1 (b :: rest) := by
  refine if_congr Iff.rfl rfl ?_
  cases walkFails a 1 (b :: rest) with
  | none => exact if_neg (List.cons_ne_nil b rest)
  | some i => rfl

/-- The check names the first breakpoint that does not pass. -/
theorem curveFails_firstFailure (points : List Breakpoint) : FirstFailure (PointPasses points) (curveFails points) := by
  match points with
  | [] => exact .here (by simp [pointPasses_of_length_le])
  | [b] =>
    rw [curveFails_single]
    split
    · exact .here fun h => pointPasses_zero.mp h ‹_›
    · exact .later (r := some 0) (pointPasses_zero.mpr ‹_›) (.here (by simp [pointPasses_of_length_le]))
  | a :: b :: rest =>
    rw [curveFails_cons_cons]
    split
    · exact .here fun h => pointPasses_zero.mp h ‹_›
    · rw [walkFails_succ]
      refine .later (pointPasses_zero.mpr ‹_›) ?_
      simpa only [pointPasses_succ] using walkFails_firstFailure a (b :: rest)

/-- Every index passes where there are two breakpoints and each of them does. -/
theorem pointPasses_all_iff (points : List Breakpoint) :
    (∀ i, PointPasses points i) ↔ 2 ≤ points.length ∧ ∀ i, i < points.length → PointPasses points i := by
  constructor
  · exact fun h => ⟨(pointPasses_of_length_le le_rfl).mp (h points.length), fun i _ => h i⟩
  · rintro ⟨htwo, h⟩ i
    by_cases hi : i < points.length
    · exact h i hi
    · exact (pointPasses_of_length_le (by omega)).mpr (by omega)

theorem curveFails_eq_none_iff (points : List Breakpoint) :
    curveFails points = none ↔ 2 ≤ points.length ∧ ∀ i, i < points.length → PointPasses points i := by
  have first := curveFails_firstFailure points
  rw [← pointPasses_all_iff]
  cases h : curveFails points with
  | none => exact ⟨fun _ => by rwa [h] at first, fun _ => rfl⟩
  | some i =>
    rw [h] at first
    exact iff_of_false (Option.some_ne_none i) fun hall => first.1 (hall i)

theorem curveFails_eq_some {points : List Breakpoint} {i : Nat} (h : curveFails points = some i) :
    ¬PointPasses points i ∧ ∀ j, j < i → PointPasses points j := by
  have first := curveFails_firstFailure points
  rwa [h] at first

/-! ### The check of a bank (R52) -/

theorem Bank.firstFailure_of {b : Bank} {g : Regime} {i : Nat} (hg : curveFails (b.curves.get g).points = some i)
    (before : ∀ h : Regime, h.code.toNat < g.code.toNat → curveFails (b.curves.get h).points = none) :
    b.firstFailure = some (g.code.toNat, i) := by
  unfold Bank.firstFailure
  cases g with
  | settled => rw [show curveFails b.curves.settled.points = _ from hg]; rfl
  | aerated =>
    rw [show curveFails b.curves.settled.points = _ from before .settled (by decide),
      show curveFails b.curves.aerated.points = _ from hg]
    rfl
  | flushing =>
    rw [show curveFails b.curves.settled.points = _ from before .settled (by decide),
      show curveFails b.curves.aerated.points = _ from before .aerated (by decide),
      show curveFails b.curves.flushing.points = _ from hg]
    rfl

theorem Bank.firstFailure_eq_none {b : Bank} (h : ∀ g : Regime, curveFails (b.curves.get g).points = none) :
    b.firstFailure = none := by
  unfold Bank.firstFailure
  rw [show curveFails b.curves.settled.points = _ from h .settled,
    show curveFails b.curves.aerated.points = _ from h .aerated,
    show curveFails b.curves.flushing.points = _ from h .flushing]

/-! ### The application (R29, R53, R55) -/

theorem Lane.appliesAtOnce_iff (l : Lane) :
    l.appliesAtOnce = true ↔ l.seq.mode ≠ .auto ∨ l.seq.state = .idle := by
  simp [Lane.appliesAtOnce]

/-- BUILDUP is newly set where the candidate lies outside the drift band and the flag was clear (R23, R29). -/
theorem ZeroTracker.settle_newBuildup (z : ZeroTracker) (limit : Nat) (candidate : Int) :
    (z.settle limit candidate).2 =
      ((candidate < driftLow z.tareRef limit || driftHigh z.tareRef limit < candidate) && !z.buildup) := by
  unfold ZeroTracker.settle
  split
  · simp [*]
  · split <;> simp [*]

theorem Lane.applyBank_newBuildup (l : Lane) :
    l.applyBank.2 = ((l.zero.tare < driftLow l.zero.tareRef l.flow.staged.params.driftLimit
      || driftHigh l.zero.tareRef l.flow.staged.params.driftLimit < l.zero.tare) && !l.zero.buildup) :=
  ZeroTracker.settle_newBuildup { l.zero with holdAcc := 0 } _ _

/-- The application of the staged bank of a lane that has just become pending: what the pending flag was does not
matter, and the note is raised where the tare left the staged band. -/
theorem State.applyBank_pending (s : State) (n : LaneId) :
    (s.onLane n fun l => { l with flow := { l.flow with commitPending := true } }).applyBank n =
      let l := s.lane n
      let limit := l.flow.staged.params.driftLimit
      let outside : Bool := l.zero.tare < driftLow l.zero.tareRef limit || driftHigh l.zero.tareRef limit < l.zero.tare
      { s with
        lanes := s.lanes.set n l.applied
        up := { s.up with laneNotes :=
          if outside && !l.zero.buildup then s.up.laneNotes.set n true else s.up.laneNotes } } := by
  unfold State.applyBank
  rw [State.onLane, State.putLane_lane_self, State.putLane_putLane, State.putLane_raiseNoteIf, Lane.applyBank_eq,
    Lane.applyBank_newBuildup]
  rfl

/-! ### COMMIT -/

theorem exec_commit {s : State} {src hi lo : Byte} {args : List Byte} (h : s.Answers src (0x07 :: hi :: lo :: args)) :
    exec (.commit src (hi :: lo :: args)) s =
      .next ((decideCommit { src, tagHi := hi, tagLo := lo, args } (s.asked src (0x07 :: hi :: lo :: args))).deliver
        0x07 { src, tagHi := hi, tagLo := lo, args }) :=
  congrArg Host.Outcome.next (State.request_of_answers h decideCommit)

theorem decideCommit_above {s : State} {lane : Byte} (h : 3 < lane.toNat) (src hi lo : Byte) (rest : List Byte) :
    decideCommit { src, tagHi := hi, tagLo := lo, args := lane :: rest } s = refuse s .badArg :=
  withLaneArg_above h rest _

/-- COMMIT on a lane in range: BUSY while one is pending, BAD_TABLE at the first failure, carried out where there is
none. -/
theorem decideCommit_of {s : State} {lane : Byte} {n : LaneId} (hn : laneOf lane.toNat = some n) (src hi lo : Byte)
    (rest : List Byte) :
    decideCommit { src, tagHi := hi, tagLo := lo, args := lane :: rest } s =
      if (s.lane n).flow.commitPending then refuse s .busy
      else (s.lane n).flow.staged.firstFailure.elim (s.commitLane n) fun (g, i) =>
        refuseWith s .badTable [BitVec.ofNat 8 g, BitVec.ofNat 8 i] := by
  refine (withLaneArg_of hn rest _).trans (if_congr Iff.rfl rfl ?_)
  cases (s.lane n).flow.staged.firstFailure <;> rfl

/-- Settles O49: the walk names the first breakpoint that fails, and COMMIT turns on the lane number, on the pending
flag, on the first failure of the staged bank, and on the lane's mode and state. -/
theorem commitChecksAndAppliesTheStagedBank : Obligations.CommitChecksAndAppliesTheStagedBank := by
  refine ⟨fun points => ⟨curveFails_eq_none_iff points, fun _ hi => curveFails_eq_some hi⟩,
    fun s src hi lo lane rest ha habove => ?above, fun s src hi lo lane rest n ha hn => ?onLane⟩
  case above =>
    rw [exec_commit ha, decideCommit_above habove, refuse_deliver]
    rfl
  case onLane =>
    rw [exec_commit ha, decideCommit_of hn, State.asked_lane]
    refine ⟨fun hpending => ?busy, fun hclear => ⟨fun g i hfail before => ?badTable, fun valid hauto hbusy => ?pending,
      fun valid hfree => ?applied⟩⟩
    case busy =>
      rw [if_pos hpending, refuse_deliver]
      rfl
    case badTable =>
      rw [if_neg (by simp [hclear]), Bank.firstFailure_of hfail before, Option.elim_some, refuseWith_deliver,
        BitVec.ofNat_toNat, BitVec.setWidth_eq]
      rfl
    case pending =>
      have hwaits : ¬(s.lane n).appliesAtOnce = true := by
        rw [Lane.appliesAtOnce_iff]
        simp [hauto, hbusy]
      rw [if_neg (by simp [hclear]), Bank.firstFailure_eq_none valid, Option.elim_none, State.commitLane,
        State.asked_lane, if_neg hwaits, accept_deliver]
      rfl
    case applied =>
      rw [if_neg (by simp [hclear]), Bank.firstFailure_eq_none valid, Option.elim_none, State.commitLane,
        State.asked_lane, if_pos ((Lane.appliesAtOnce_iff _).mpr hfree), State.applyBank_pending, accept_deliver]
      simp only [State.asked_lane, Lane.applied, Bool.or_assoc]
      rfl

end Sys2Proof.Machine
end

section
/-! SUPPORT. PARAM_SET (R46, R48 to R50): the parameters as a list by id, what a write stores and which coupled partner
it changes, and O47. -/

namespace Sys2Proof.Machine

/-! ### Reading after a write (R46) -/

/-- The parameters in the order of their ids. -/
def Params.values (p : Params) : List Nat :=
  [p.window, p.spikeLimit, p.gapLimit, p.nominalInterval, p.zeroBand, p.zeroHold, p.driftLimit, p.pLow, p.pHigh,
   p.flushRun, p.regimeSettle, p.fillPosition, p.tricklePosition, p.flushPosition, p.closedBand, p.trickleBand,
   p.fallTime, p.trimLimit, p.learnGain, p.learnWindow, p.confirmTime, p.gateRetries, p.settleTime, p.settleFlow,
   p.silenceTime, p.reconcileGain, p.reconcileWindow, p.gangWait]

theorem Params.get_eq_values (p : Params) {id : Nat} (h : id ≤ 27) : p.get id = p.values.getD id 0 := by
  interval_cases id <;> rfl

theorem Params.values_put (p : Params) {id : Nat} (h : id ≤ 27) (v : Nat) : (p.put id v).values = p.values.set id v := by
  interval_cases id <;> rfl

theorem Params.get_put_self (p : Params) {id : Nat} (h : id ≤ 27) (v : Nat) : (p.put id v).get id = v := by
  have hlen : id < p.values.length := Nat.lt_succ_of_le h
  rw [Params.get_eq_values _ h, Params.values_put p h, List.getD_eq_getElem?_getD, List.getElem?_set_self hlen]
  rfl

theorem Params.get_put_of_ne (p : Params) {id k : Nat} (h : id ≤ 27) (hk : k ≤ 27) (hne : k ≠ id) (v : Nat) :
    (p.put id v).get k = p.get k := by
  rw [Params.get_eq_values _ hk, Params.get_eq_values _ hk, Params.values_put p h, List.getD_eq_getElem?_getD,
    List.getElem?_set_ne hne.symm, List.getD_eq_getElem?_getD]

/-! ### The coupled partner (R50) -/

/-- A write changes a partner in two cases: the nominal interval with the gap limit, and p high with p low. -/
theorem Params.partner_cases {p : Params} {id stored k x : Nat} (h : p.partner id stored = some (k, x)) :
    (id = 2 ∧ k = 3) ∨ (id = 7 ∧ k = 8) := by
  unfold Params.partner at h
  split at h
  · simp_all
  · simp_all
  · exact nomatch h

theorem Params.partner_eq_none {p : Params} {id stored : Nat} (h2 : id ≠ 2) (h7 : id ≠ 7) :
    p.partner id stored = none := by
  cases h : p.partner id stored with
  | none => rfl
  | some kx =>
    have hid := Params.partner_cases h
    omega

theorem Params.partner_gapLimit (p : Params) (stored : Nat) :
    p.partner 2 stored = if stored < p.nominalInterval then some (3, stored) else none := rfl

theorem Params.partner_pLow (p : Params) (stored : Nat) :
    p.partner 7 stored = if p.pHigh ≤ stored then some (8, stored + 1) else none := rfl

theorem Params.write_of_partner {p : Params} {id v k x : Nat} (h : p.partner id (p.stored id v) = some (k, x)) :
    p.write id v = (p.put id (p.stored id v)).put k x := by
  unfold Params.write
  dsimp only
  rw [h]

theorem Params.write_of_no_partner {p : Params} {id v : Nat} (h : p.partner id (p.stored id v) = none) :
    p.write id v = p.put id (p.stored id v) := by
  unfold Params.write
  dsimp only
  rw [h]

theorem Params.get_write_self (p : Params) {id : Nat} (h : id ≤ 27) (v : Nat) :
    (p.write id v).get id = p.stored id v := by
  cases hp : p.partner id (p.stored id v) with
  | none => rw [Params.write_of_no_partner hp, Params.get_put_self p h]
  | some kx =>
    have hk := Params.partner_cases hp
    rw [Params.write_of_partner hp, Params.get_put_of_ne _ (by omega) h (by omega), Params.get_put_self p h]

theorem Params.get_write_partner {p : Params} {id v k x : Nat} (h : p.partner id (p.stored id v) = some (k, x)) :
    (p.write id v).get k = x := by
  have hk := Params.partner_cases h
  rw [Params.write_of_partner h, Params.get_put_self _ (by omega)]

/-- A write leaves the parameters other than its own and the partner as they are. -/
theorem Params.get_write_of_ne (p : Params) {id k : Nat} (h : id ≤ 27) (hk : k ≤ 27) (hne : k ≠ id) (v : Nat)
    (hp : ∀ x, p.partner id (p.stored id v) ≠ some (k, x)) : (p.write id v).get k = p.get k := by
  cases hcase : p.partner id (p.stored id v) with
  | none => rw [Params.write_of_no_partner hcase, Params.get_put_of_ne p h hk hne]
  | some jx =>
    obtain ⟨j, x⟩ := jx
    have hj := Params.partner_cases hcase
    have hkj : k ≠ j := fun e => hp x (e ▸ hcase)
    rw [Params.write_of_partner hcase, Params.get_put_of_ne _ (by omega) hk hkj, Params.get_put_of_ne p h hk hne]

/-! ### The stored value (R46, R48 to R50) -/

theorem windowStored_of_band {k v : Nat} (hk : k ≤ 5) (hlow : 2 ^ k ≤ v) (hhigh : v < 2 ^ (k + 1)) :
    windowStored v = 2 ^ k := by
  unfold windowStored
  interval_cases k <;> split_ifs <;> omega

/-- The window is the greatest power of two that is no greater than the value brought into 1 to 32 (R49). -/
theorem windowStored_eq (v : Nat) :
    windowStored v = if v = 0 then 1 else if 32 < v then 32 else 2 ^ Nat.log2 v := by
  split_ifs with hzero hlarge
  · rw [hzero]
    rfl
  · unfold windowStored
    split_ifs <;> omega
  · have hlow : 2 ^ v.log2 ≤ v := Nat.log2_self_le hzero
    have hband : v.log2 < 6 := (Nat.log2_lt hzero).mpr (by omega)
    exact windowStored_of_band (by omega) hlow Nat.lt_log2_self

/-- The ranges of R46 by id. That of the nominal interval, whose upper end is the gap limit of the bank, stands with the
greatest value the gap limit can have. -/
def fixedRanges : List (Nat × Nat) :=
  [(1, 32), (0, 32767), (2, 1000), (1, 1000), (0, 2000), (100, 60000), (0, 8000), (0, 5999), (0, 6000), (1, 255),
   (0, 10000), (1, 1000), (1, 1000), (1, 1000), (0, 100), (0, 50000), (0, 5000), (0, 500000), (0, 16),
   (0, 1000000), (100, 10000), (0, 7), (200, 30000), (0, 20000), (10, 5000), (0, 16), (1, 200), (1000, 600000)]

theorem Params.range_eq (p : Params) {id : Nat} (h : id ≤ 27) :
    p.range id = if id = 3 then (1, p.gapLimit) else fixedRanges.getD id (0, 0) := by
  interval_cases id <;> rfl

/-- A parameter whose range is fixed stores the value brought into it (R48). -/
theorem Params.stored_of_fixedRange (p : Params) {id : Nat} (h : id ≤ 27) (h0 : id ≠ 0) (h3 : id ≠ 3) (h8 : id ≠ 8)
    (v : Nat) : p.stored id v = max (fixedRanges.getD id (0, 0)).1 (min (fixedRanges.getD id (0, 0)).2 v) := by
  have hrange := p.range_eq h
  rw [if_neg h3] at hrange
  rw [← hrange]
  unfold Params.stored
  split
  · exact absurd rfl h0
  · exact absurd rfl h8
  · rfl

/-! ### The parameters with a rule of their own (R49, R50) -/

theorem Params.stored_window (p : Params) (v : Nat) :
    p.stored 0 v = if v = 0 then 1 else if 32 < v then 32 else 2 ^ Nat.log2 v :=
  windowStored_eq v

theorem Params.stored_gapLimit (p : Params) (v : Nat) : p.stored 2 v = max 2 (min 1000 v) := rfl

theorem Params.stored_nominalInterval (p : Params) (v : Nat) : p.stored 3 v = max 1 (min p.gapLimit v) := rfl

theorem Params.stored_pLow (p : Params) (v : Nat) : p.stored 7 v = min 5999 v := Nat.zero_max _

theorem Params.stored_pHigh (p : Params) (v : Nat) :
    p.stored 8 v = if min 6000 v ≤ p.pLow then p.pLow + 1 else min 6000 v := rfl

/-! ### PARAM_SET -/

theorem exec_paramSet {s : State} {src hi lo : Byte} {args : List Byte}
    (h : s.Answers src (0x05 :: hi :: lo :: args)) :
    exec (.paramSet src (hi :: lo :: args)) s =
      .next ((decideParamSet { src, tagHi := hi, tagLo := lo, args } (s.asked src (0x05 :: hi :: lo :: args))).deliver
        0x05 { src, tagHi := hi, tagLo := lo, args }) :=
  congrArg Host.Outcome.next (State.request_of_answers h decideParamSet)

/-- PARAM_SET on a lane in range: BAD_ARG for an id above 27, BUSY while a commit is pending, else the write. -/
theorem decideParamSet_of {s : State} {lane : Byte} {n : LaneId} (hn : laneOf lane.toNat = some n)
    (src hi lo id v3 v2 v1 v0 : Byte) (rest : List Byte) :
    decideParamSet { src, tagHi := hi, tagLo := lo, args := lane :: id :: v3 :: v2 :: v1 :: v0 :: rest } s =
      if 27 < id.toNat then refuse s .badArg
      else if (s.lane n).flow.commitPending then refuse s .busy
      else s.setParam n id.toNat (rd32 v3 v2 v1 v0) :=
  withLane_of hn _

theorem decideParamSet_outOfRange {s : State} {lane id : Byte} (h : 3 < lane.toNat ∨ 27 < id.toNat)
    (src hi lo v3 v2 v1 v0 : Byte) (rest : List Byte) :
    decideParamSet { src, tagHi := hi, tagLo := lo, args := lane :: id :: v3 :: v2 :: v1 :: v0 :: rest } s =
      refuse s .badArg := by
  cases hn : laneOf lane.toNat with
  | none =>
    show withLane s lane.toNat _ = _
    unfold withLane
    rw [hn]
  | some n =>
    have hlane : ¬3 < lane.toNat := fun habove => nomatch hn.symm.trans (laneOf_above habove)
    rw [decideParamSet_of hn, if_pos (h.resolve_left hlane)]

/-- The reply's bytes on the coupled partner: its id and new value, or 255 and 0 where none changed (R48). -/
def partnerBytes : Option (Nat × Nat) → List Byte
  | some (k, x) => BitVec.ofNat 8 k :: be32 x
  | none => 0xFF :: be32 0

/-- A write delivered: the staged parameters written, the reply ADJUSTED where the value was or a partner changed. -/
theorem State.setParam_deliver (s : State) (n : LaneId) (id v : Nat) (kind : Byte) (a : Asked) :
    (s.setParam n id v).deliver kind a =
      let l := s.lane n
      let p := l.flow.staged.params
      let second := p.partner id (p.stored id v)
      { s with lanes := s.lanes.set n { l with flow := { l.flow with
          staged := { l.flow.staged with params := p.write id v } } } }.replying a.src
        ([kind, a.tagHi, a.tagLo, if p.stored id v = v ∧ second = none then 0 else 1, BitVec.ofNat 8 id]
          ++ be32 (p.stored id v) ++ partnerBytes second) := by
  unfold State.setParam Decision.deliver
  dsimp only
  rw [State.queueReply_eq_replying, apply_ite statusCode]
  rfl

/-- Settles O47: PARAM_SET turns on the lane number, the id and the pending flag; the parameters it stores are
`Params.write` of the staged ones, and the second parameter changed is `Params.partner`. -/
theorem paramSetBringsValuesIntoRange : Obligations.ParamSetBringsValuesIntoRange := by
  intro s src hi lo lane id v3 v2 v1 v0 rest ha body t v ranges
  refine ⟨fun hout => ?badArg, fun n hn hid => ⟨fun hpending => ?busy, fun hclear => ?written⟩⟩
  case badArg =>
    rw [exec_paramSet ha, decideParamSet_outOfRange hout, refuse_deliver]
    rfl
  case busy =>
    rw [exec_paramSet ha, decideParamSet_of hn, if_neg (not_lt.mpr hid), State.asked_lane, if_pos hpending,
      refuse_deliver]
    rfl
  case written =>
    intro l p
    have hself : (p.write id.toNat v).get id.toNat = p.stored id.toNat v := p.get_write_self hid v
    refine ⟨p.write id.toNat v, p.partner id.toNat (p.stored id.toNat v), ?reply, ?others, ?partner, ?window, ?gapLimit,
      ?interval, ?pLow, ?pHigh, ?plain⟩
    case reply =>
      rw [exec_paramSet ha, decideParamSet_of hn, if_neg (not_lt.mpr hid), State.asked_lane,
        if_neg (by simp [hclear]), State.setParam_deliver, hself, BitVec.ofNat_toNat, BitVec.setWidth_eq]
      rfl
    case others => exact fun k hk hne hp => p.get_write_of_ne hid hk hne v hp
    case partner => exact fun k x h => Params.get_write_partner h
    case window =>
      intro hword
      rw [show id.toNat = 0 from congrArg BitVec.toNat hword] at hself ⊢
      exact ⟨Params.partner_eq_none (by decide) (by decide), hself.trans (p.stored_window v)⟩
    case gapLimit =>
      intro hword
      rw [show id.toNat = 2 from congrArg BitVec.toNat hword] at hself ⊢
      exact ⟨hself.trans (p.stored_gapLimit v), by rw [hself, p.partner_gapLimit]⟩
    case interval =>
      intro hword
      rw [show id.toNat = 3 from congrArg BitVec.toNat hword] at hself ⊢
      exact ⟨Params.partner_eq_none (by decide) (by decide), hself.trans (p.stored_nominalInterval v)⟩
    case pLow =>
      intro hword
      rw [show id.toNat = 7 from congrArg BitVec.toNat hword] at hself ⊢
      exact ⟨hself.trans (p.stored_pLow v), by rw [hself, p.partner_pLow]⟩
    case pHigh =>
      intro hword
      rw [show id.toNat = 8 from congrArg BitVec.toNat hword] at hself ⊢
      exact ⟨Params.partner_eq_none (by decide) (by decide), hself.trans (p.stored_pHigh v)⟩
    case plain =>
      intro h0 h2 h3 h7 h8
      have toNat_ne {c : Byte} (h : id ≠ c) : id.toNat ≠ c.toNat := fun e => h (BitVec.eq_of_toNat_eq e)
      exact ⟨Params.partner_eq_none (toNat_ne h2) (toNat_ne h7),
        hself.trans (p.stored_of_fixedRange hid (toNat_ne h0) (toNat_ne h3) (toNat_ne h8) v)⟩

end Sys2Proof.Machine
end

section
/-! SUPPORT. ORDER_POST (R69 to R72): its argument bytes read back, its range checks and its searches of the queues in
the words of R71, and O53. -/

namespace Sys2Proof.Machine

/-! ### Numbers on the link (R189) -/

theorem rd16_be16 {n : Nat} (h : n < 65536) : rd16 (BitVec.ofNat 8 (n / 256)) (BitVec.ofNat 8 n) = n := by
  simp only [rd16, BitVec.toNat_ofNat]
  omega

theorem rd32_be32 {n : Nat} (h : n < 4294967296) :
    rd32 (BitVec.ofNat 8 (n / 65536 / 256)) (BitVec.ofNat 8 (n / 65536)) (BitVec.ofNat 8 (n / 256)) (BitVec.ofNat 8 n)
      = n := by
  simp only [rd32, rd16, BitVec.toNat_ofNat]
  omega

/-! ### The argument bytes of ORDER_POST (R191) -/

theorem takeTargets_flatMap_be32 (targets : List Nat) (after : List Byte) (h : ∀ x ∈ targets, x < 4294967296) :
    takeTargets targets.length (targets.flatMap be32 ++ after) = some (targets, after) := by
  induction targets with
  | nil => rfl
  | cons x xs ih =>
    obtain ⟨hx, hxs⟩ := List.forall_mem_cons.mp h
    simp only [List.length_cons, List.flatMap_cons, be32, be16, List.cons_append, List.nil_append, takeTargets]
    rw [ih hxs, rd32_be32 hx]

theorem decodeOrderPost_encodeOrderPost {p : OrderPostArgs} (hlane : p.lane < 256) (htag : p.tag < 65536)
    (hgang : p.gangTag < 256) (hsize : p.gangSize < 256) (htrickle : p.noTrickle < 256)
    (hcount : p.targets.length < 256) (htargets : ∀ x ∈ p.targets, x < 4294967296) (hvehicle : p.vehicle.length < 256)
    (rest : List Byte) : decodeOrderPost (encodeOrderPost p ++ rest) = some p := by
  have htaken := takeTargets_flatMap_be32 p.targets (BitVec.ofNat 8 p.vehicle.length :: (p.vehicle ++ rest)) htargets
  simp only [encodeOrderPost, be16, List.append_assoc, List.cons_append, List.nil_append, decodeOrderPost,
    BitVec.toNat_ofNat, Nat.reducePow, Nat.mod_eq_of_lt, hlane, hgang, hsize, htrickle, hcount, hvehicle, htaken,
    rd16_be16 htag, List.length_append, List.take_left]
  rw [if_neg (by omega)]

/-- The first argument byte is the lane number. -/
theorem decodeOrderPost_lane {lane : Byte} {rest : List Byte} {p : OrderPostArgs}
    (h : decodeOrderPost (lane :: rest) = some p) : p.lane = lane.toNat := by
  unfold decodeOrderPost at h
  split at h
  next heq =>
    cases heq
    split at h
    next =>
      split at h
      next => cases h
      next => cases h; rfl
    next => cases h
  next => cases h

/-! ### The checks of R71 -/

/-- Step 1 of R71 but for the lane number, and the no-trickle byte of section 12.3. -/
theorem orderArgsOk_iff (p : OrderPostArgs) :
    orderArgsOk p = true ↔ 1 ≤ p.tag ∧ p.gangTag ≤ 15 ∧ (p.gangTag ≠ 0 → 2 ≤ p.gangSize ∧ p.gangSize ≤ 4)
      ∧ p.noTrickle ≤ 1 ∧ 1 ≤ p.targets.length ∧ p.targets.length ≤ 4 ∧ (∀ x ∈ p.targets, 1 ≤ x ∧ x ≤ 1000000)
      ∧ p.vehicle.length ≤ 8 ∧ ∀ c ∈ p.vehicle, 0x20 ≤ c.toNat ∧ c.toNat ≤ 0x7E := by
  simp only [orderArgsOk, Bool.and_eq_true, Bool.or_eq_true, bne_iff_ne, beq_iff_eq, decide_eq_true_eq,
    List.all_eq_true, Nat.one_le_iff_ne_zero, or_iff_not_imp_left]
  tauto

theorem State.mem_presentOrders {s : State} {o : Order} : o ∈ s.presentOrders ↔ ∃ m, o ∈ s.queue m := by
  simp [State.presentOrders]

@[simp] theorem State.asked_presentOrders (s : State) (src : Byte) (payload : List Byte) :
    (s.asked src payload).presentOrders = s.presentOrders := rfl

/-- Step 3 of R71: an order of the tag is present. -/
theorem State.any_tag_iff (s : State) (tag : Nat) :
    s.presentOrders.any (fun o => o.tag == tag) = true ↔ ∃ o, (∃ m, o ∈ s.queue m) ∧ o.tag = tag := by
  simp only [List.any_eq_true, State.mem_presentOrders, beq_iff_eq]

/-- Step 4 of R71: an order present has the gang tag with another size. -/
theorem State.any_gangDiffers_iff (s : State) (p : OrderPostArgs) :
    s.presentOrders.any (gangDiffers p) = true ↔
      ∃ o, (∃ m, o ∈ s.queue m) ∧ p.gangTag ≠ 0 ∧ o.gangTag = p.gangTag ∧ o.gangSize ≠ some p.gangSize := by
  simp only [List.any_eq_true, State.mem_presentOrders, gangDiffers, Bool.and_eq_true, bne_iff_ne, beq_iff_eq,
    and_assoc]

/-! ### The command -/

theorem exec_orderPost {s : State} {src hi lo : Byte} {args : List Byte}
    (h : s.Answers src (0x0B :: hi :: lo :: args)) :
    exec (.orderPost src (hi :: lo :: args)) s =
      .next ((decideOrderPost { src, tagHi := hi, tagLo := lo, args } (s.asked src (0x0B :: hi :: lo :: args))).deliver
        0x0B { src, tagHi := hi, tagLo := lo, args }) :=
  congrArg Host.Outcome.next (State.request_of_answers h decideOrderPost)

/-- A lane number above 3 is BAD_ARG, whether or not the payload holds all the arguments (R71, R179). -/
theorem decideOrderPost_above {s : State} {lane : Byte} (h : 3 < lane.toNat) (src hi lo : Byte) (rest : List Byte) :
    decideOrderPost { src, tagHi := hi, tagLo := lo, args := lane :: rest } s = refuse s .badArg := by
  unfold decideOrderPost
  cases hp : decodeOrderPost (lane :: rest) with
  | none => rfl
  | some p =>
    rw [withArgs_some, withLane, decodeOrderPost_lane hp, laneOf_above h]

/-- ORDER_POST on a lane in range: the checks of R71 in their order, then the order at the tail (R72). -/
theorem decideOrderPost_of {s : State} {a : Asked} {p : OrderPostArgs} {n : LaneId}
    (hp : decodeOrderPost a.args = some p) (hn : laneOf p.lane = some n) :
    decideOrderPost a s =
      if ¬orderArgsOk p = true then refuse s .badArg
      else if (s.lane n).seq.mode ≠ .auto then refuse s .state
      else if s.presentOrders.any (fun o => o.tag == p.tag) then refuseWith s .duplicate [1, 0xFF]
      else if s.presentOrders.any (gangDiffers p) then refuseWith s .duplicate [2, 0xFF]
      else if 4 ≤ (s.queue n).length then refuse s .full
      else accept (s.putQueue n (s.queue n ++ [newOrder p]))
        [BitVec.ofNat 8 p.lane, BitVec.ofNat 8 ((s.queue n).length + 1)] := by
  unfold decideOrderPost
  rw [hp, withArgs_some, withLane_of hn, laneOf_eq_some hn]
  simp only [Bool.not_eq_true', Bool.not_eq_true]

/-- Settles O53: the arguments are read back from their bytes, and the reply is that of the first check of R71 that
fails. -/
theorem orderPostChecksInOrderAndQueuesTheOrder : Obligations.OrderPostChecksInOrderAndQueuesTheOrder := by
  refine ⟨fun s src hi lo lane rest ha habove => ?above,
    fun s src hi lo rest p n ha hn htag hgang hsize htrickle hcount htargets hvehicle => ?onLane⟩
  case above =>
    rw [exec_orderPost ha, decideOrderPost_above habove, refuse_deliver]
    rfl
  case onLane =>
    intro body t present inRange posted
    have hlane : p.lane < 256 := by
      have := laneNum_lt n
      have := laneOf_eq_some hn
      omega
    have hp := decodeOrderPost_encodeOrderPost hlane htag hgang hsize htrickle hcount htargets hvehicle rest
    rw [exec_orderPost ha, decideOrderPost_of hp hn, State.asked_lane, State.asked_queue, State.asked_presentOrders]
    refine ⟨fun hout => ?badArg, fun hin hmode => ?state, fun hin hauto => ?inAuto⟩
    case badArg =>
      rw [if_pos (mt (orderArgsOk_iff p).mp hout), refuse_deliver]
      rfl
    case state =>
      rw [if_neg (not_not.mpr ((orderArgsOk_iff p).mpr hin)), if_pos hmode, refuse_deliver]
      rfl
    case inAuto =>
      rw [if_neg (not_not.mpr ((orderArgsOk_iff p).mpr hin)), if_neg (not_not.mpr hauto)]
      refine ⟨fun hused => ?tagUsed, fun hfree => ?tagFree⟩
      case tagUsed =>
        rw [if_pos ((s.any_tag_iff _).mpr hused), refuseWith_deliver]
        rfl
      case tagFree =>
        rw [if_neg (mt (s.any_tag_iff _).mp fun ⟨o, ho, htag⟩ => hfree o ho htag)]
        refine ⟨fun hother => ?sizeDiffers, fun hsame => ?oneSize⟩
        case sizeDiffers =>
          rw [if_pos ((s.any_gangDiffers_iff p).mpr hother), refuseWith_deliver]
          rfl
        case oneSize =>
          rw [if_neg (mt (s.any_gangDiffers_iff p).mp fun ⟨o, ho, hg, htag, hne⟩ => hne (hsame o ho hg htag))]
          refine ⟨fun hfull => ?full, fun hroom => ?queued⟩
          case full =>
            rw [if_pos hfull, refuse_deliver]
            rfl
          case queued =>
            rw [if_neg (not_le.mpr hroom), accept_deliver]
            rfl

end Sys2Proof.Machine
end

section
/-! SUPPORT. LANE_READ and ORDER_LIST (R76, R79, R118, R182, R191): the bytes they carry, and O54. -/

namespace Sys2Proof.Machine

/-! ### The bytes of LANE_READ (section 12.3) -/

/-- The state is reported in AUTO only (R87). -/
theorem Lane.reportedState_code (l : Lane) :
    l.reportedState.code = if l.seq.mode = .auto then l.seq.state.code else 0 := by
  unfold Lane.reportedState
  cases l.seq.mode <;> rfl

/-- The causes are reported in AUTO only (R87). -/
theorem Lane.causeBytes_eq (l : Lane) :
    l.causeBytes = [if l.seq.mode = .auto then l.seq.holdCause.code else 0,
      if l.seq.mode = .auto then l.seq.faultCause.code else 0] := by
  unfold Lane.causeBytes
  cases l.seq.mode <;> rfl

/-- Tag and compartment index are those of the active order (R118). -/
theorem State.activeTagIndex_eq (s : State) (n : LaneId) :
    s.activeTagIndex n = ((s.activeOrder n).elim 0 (·.tag), (s.activeOrder n).elim 0 (·.compartment)) := by
  unfold State.activeTagIndex
  cases s.activeOrder n <;> rfl

/-! ### The waiting count (R76, R79) -/

theorem State.waitingSet_nodup (s : State) (gangTag : Nat) : (s.waitingSet gangTag).Nodup :=
  List.Nodup.filter _ (by decide)

/-- A lane in GANG_WAIT reports the waiting set of its active order's gang. -/
theorem State.waitingCount_of_waits {s : State} {n : LaneId} {o : Order} (ho : s.activeOrder n = some o)
    (h : s.Waits o.gangTag n) : s.waitingCount n = (s.waitingSet o.gangTag).length := by
  obtain ⟨hmode, hstate, -⟩ := h
  simp [State.waitingCount, hmode, hstate, ho]

/-- A lane that waits in no gang reports 0. -/
theorem State.waitingCount_of_not_waits {s : State} {n : LaneId} (h : ∀ g, ¬s.Waits g n) : s.waitingCount n = 0 := by
  unfold State.waitingCount
  split
  next hwait =>
    rw [Bool.and_eq_true, beq_iff_eq, beq_iff_eq] at hwait
    cases ho : s.activeOrder n with
    | none => rfl
    | some o => exact absurd ⟨hwait.1, hwait.2, o, ho, rfl⟩ (h o.gangTag)
  next => rfl

/-! ### The two commands -/

theorem exec_laneRead {s : State} {src hi lo : Byte} {args : List Byte}
    (h : s.Answers src (0x0E :: hi :: lo :: args)) :
    exec (.laneRead src (hi :: lo :: args)) s =
      .next ((decideLaneRead { src, tagHi := hi, tagLo := lo, args } (s.asked src (0x0E :: hi :: lo :: args))).deliver
        0x0E { src, tagHi := hi, tagLo := lo, args }) :=
  congrArg Host.Outcome.next (State.request_of_answers h decideLaneRead)

theorem exec_orderList {s : State} {src hi lo : Byte} {args : List Byte}
    (h : s.Answers src (0x0D :: hi :: lo :: args)) :
    exec (.orderList src (hi :: lo :: args)) s =
      .next ((decideOrderList { src, tagHi := hi, tagLo := lo, args } (s.asked src (0x0D :: hi :: lo :: args))).deliver
        0x0D { src, tagHi := hi, tagLo := lo, args }) :=
  congrArg Host.Outcome.next (State.request_of_answers h decideOrderList)

theorem decideLaneRead_above {s : State} {lane : Byte} (h : 3 < lane.toNat) (src hi lo : Byte) (rest : List Byte) :
    decideLaneRead { src, tagHi := hi, tagLo := lo, args := lane :: rest } s = refuse s .badArg :=
  withLaneArg_above h rest _

theorem decideLaneRead_of {s : State} {lane : Byte} {n : LaneId} (hn : laneOf lane.toNat = some n) (src hi lo : Byte)
    (rest : List Byte) :
    decideLaneRead { src, tagHi := hi, tagLo := lo, args := lane :: rest } s = accept s (s.laneReadBytes n) :=
  withLaneArg_of hn rest _

theorem decideOrderList_above {s : State} {lane : Byte} (h : 3 < lane.toNat) (src hi lo : Byte) (rest : List Byte) :
    decideOrderList { src, tagHi := hi, tagLo := lo, args := lane :: rest } s = refuse s .badArg :=
  withLaneArg_above h rest _

theorem decideOrderList_of {s : State} {lane : Byte} {n : LaneId} (hn : laneOf lane.toNat = some n) (src hi lo : Byte)
    (rest : List Byte) :
    decideOrderList { src, tagHi := hi, tagLo := lo, args := lane :: rest } s =
      accept s ([BitVec.ofNat 8 (s.queue n).length, BitVec.ofNat 8 (s.waitingCount n)]
        ++ (s.queue n).flatMap orderBytes) :=
  withLaneArg_of hn rest _

/-- Settles O54: each request is its owner's decision, which leaves the unit as it is; the members of the waiting count
are the waiting set of the lane's gang. -/
theorem laneReadAndOrderListReport : Obligations.LaneReadAndOrderListReport := by
  refine ⟨fun s src hi lo lane rest habove => ⟨fun ha => ?badRead, fun ha => ?badList⟩,
    fun s src hi lo lane rest n hn => ⟨fun ha => ?read, s.waitingCount n, fun ha => ?list, fun o ho hwaits => ?waiting,
      fun hnone => State.waitingCount_of_not_waits hnone⟩⟩
  case badRead =>
    rw [exec_laneRead ha, decideLaneRead_above habove, refuse_deliver]
    rfl
  case badList =>
    rw [exec_orderList ha, decideOrderList_above habove, refuse_deliver]
    rfl
  case read =>
    rw [exec_laneRead ha, decideLaneRead_of hn, accept_deliver, State.laneReadBytes, Lane.reportedState_code,
      Lane.causeBytes_eq, State.activeTagIndex_eq]
    simp only [List.append_assoc]
    rfl
  case list =>
    rw [exec_orderList ha, decideOrderList_of hn, accept_deliver]
    rfl
  case waiting =>
    exact ⟨s.waitingSet o.gangTag, s.waitingSet_nodup _, (State.waitingCount_of_waits ho hwaits).symm,
      fun m => State.mem_waitingSet⟩

end Sys2Proof.Machine
end

section
/-! SUPPORT. SCALE_RESULT (R128 to R130, R132): the entries of a tag, the lowest-numbered open one, the lane after a
weighed mass, and O57. -/

namespace Sys2Proof.Machine

/-! ### The entries of a tag (R128) -/

theorem State.entryOf_eq_some {s : State} {tag : Nat} {n : LaneId} {e : ReconEntry} :
    s.entryOf tag n = some e ↔ (s.lane n).recon = some e ∧ e.tag = tag := by
  simp only [State.entryOf, Option.filter_eq_some_iff, beq_iff_eq]

/-- Step 2 of R128 as the responder checks it: no lane's entry carries the tag. -/
theorem State.not_any_entryOf_iff (s : State) (tag : Nat) :
    (!allLanes.any fun n => (s.entryOf tag n).isSome) = true ↔ ∀ n e, (s.lane n).recon = some e → e.tag ≠ tag := by
  simp only [Bool.not_eq_true', List.any_eq_false, mem_allLanes, forall_true_left, Option.isSome_iff_exists,
    State.entryOf_eq_some, not_exists, not_and, ne_eq]

/-- Step 3 of R128: every entry of the tag is reconciled. -/
theorem State.openEntry_eq_none {s : State} {tag : Nat}
    (h : ∀ n e, (s.lane n).recon = some e → e.tag = tag → e.reconciled = true) : s.openEntry tag = none := by
  refine List.findSome?_eq_none_iff.mpr fun n _ => ?_
  rw [Option.map_eq_none_iff, Option.filter_eq_none_iff]
  intro e he
  obtain ⟨hrecon, htag⟩ := State.entryOf_eq_some.mp he
  simp [h n e hrecon htag]

/-- The search of R128 meets the lanes in the order of their numbers. -/
theorem allLanes_eq_append (n : LaneId) :
    ∃ before after, allLanes = before ++ n :: after ∧ ∀ m ∈ before, laneNum m < laneNum n := by
  cases n with
  | lane0 => exact ⟨[], _, rfl, by decide⟩
  | lane1 => exact ⟨[.lane0], _, rfl, by decide⟩
  | lane2 => exact ⟨[.lane0, .lane1], _, rfl, by decide⟩
  | lane3 => exact ⟨[.lane0, .lane1, .lane2], _, rfl, by decide⟩

/-- The request is decided against the lowest-numbered lane whose entry of the tag is open (R128). -/
theorem State.openEntry_of_lowest {s : State} {tag : Nat} {n : LaneId} {e : ReconEntry}
    (hrecon : (s.lane n).recon = some e) (htag : e.tag = tag) (hopen : e.reconciled = false)
    (hlowest : ∀ m x, laneNum m < laneNum n → (s.lane m).recon = some x → x.tag = tag → x.reconciled = true) :
    s.openEntry tag = some (n, e) := by
  obtain ⟨before, after, hsplit, hbefore⟩ := allLanes_eq_append n
  refine List.findSome?_eq_some_iff.mpr ⟨before, n, after, hsplit, ?chosen, fun m hm => ?passed⟩
  case chosen =>
    rw [State.entryOf_eq_some.mpr ⟨hrecon, htag⟩]
    simp [hopen]
  case passed =>
    rw [Option.map_eq_none_iff, Option.filter_eq_none_iff]
    intro x hx
    obtain ⟨hx, hxtag⟩ := State.entryOf_eq_some.mp hx
    simp [hlowest m x (hbefore m hm) hx hxtag]

/-! ### The decision against an entry (R129, R130, R132) -/

theorem outsideWindow_iff (m s window : Nat) :
    outsideWindow m s window = true ↔ m = 0 ∨ m * window < ((s : Int) - m).natAbs * 1000 := by
  simp only [outsideWindow, Bool.or_eq_true, decide_eq_true_eq]

/-- The meter factor of a lane after a weighed mass S is decided against an entry: kept outside the window, corrected
inside it (R129, R130). -/
def Lane.factorAfter (l : Lane) (e : ReconEntry) (s : Nat) : Nat :=
  if outsideWindow e.metered s l.params.reconcileWindow = true then l.flow.meterFactor
  else correctedFactor e s l.params.reconcileGain l.flow.meterFactor

/-- Either way the entry is marked; the factor is all else that can change. -/
theorem Lane.reconcile_eq (l : Lane) (e : ReconEntry) (netKg : Nat) :
    l.reconcile e netKg =
      ({ l with
          recon := some { e with reconciled := true }
          flow := { l.flow with meterFactor := l.factorAfter e (netKg * 1000) } },
        !outsideWindow e.metered (netKg * 1000) l.params.reconcileWindow) := by
  unfold Lane.reconcile Lane.factorAfter
  dsimp only
  cases outsideWindow e.metered (netKg * 1000) l.params.reconcileWindow <;> rfl

/-- A weighed mass delivered: the lane reconciled, and the reply of R132, ADJUSTED outside the window. -/
theorem State.scaleLane_deliver (s : State) (n : LaneId) (e : ReconEntry) (netKg : Nat) (kind : Byte) (a : Asked) :
    (s.scaleLane n e netKg).deliver kind a =
      let l := s.lane n
      let factor := l.factorAfter e (netKg * 1000)
      let outside := outsideWindow e.metered (netKg * 1000) l.params.reconcileWindow
      { s with lanes := s.lanes.set n { l with
          recon := some { e with reconciled := true }
          flow := { l.flow with meterFactor := factor } } }.replying a.src
        ([kind, a.tagHi, a.tagLo, if outside = true then 1 else 0, BitVec.ofNat 8 (laneNum n)] ++ be32 e.metered
          ++ be16 e.factorAtEnd ++ be16 l.flow.meterFactor ++ be16 factor) := by
  unfold State.scaleLane Decision.deliver
  rw [Lane.reconcile_eq]
  dsimp only
  rw [State.queueReply_eq_replying]
  cases outsideWindow e.metered (netKg * 1000) (s.lane n).params.reconcileWindow <;> rfl

/-! ### The command -/

theorem exec_scaleResult {s : State} {src hi lo : Byte} {args : List Byte}
    (h : s.Answers src (0x10 :: hi :: lo :: args)) :
    exec (.scaleResult src (hi :: lo :: args)) s =
      .next ((decideScaleResult { src, tagHi := hi, tagLo := lo, args } (s.asked src (0x10 :: hi :: lo :: args))).deliver
        0x10 { src, tagHi := hi, tagLo := lo, args }) :=
  congrArg Host.Outcome.next (State.request_of_answers h decideScaleResult)

theorem decideScaleResult_of (s : State) (src hi lo t1 t0 k3 k2 k1 k0 : Byte) (rest : List Byte) :
    decideScaleResult { src, tagHi := hi, tagLo := lo, args := t1 :: t0 :: k3 :: k2 :: k1 :: k0 :: rest } s =
      if rd16 t1 t0 = 0 ∨ 4000000 < rd32 k3 k2 k1 k0 then refuse s .badArg
      else if !allLanes.any (fun n => (s.entryOf (rd16 t1 t0) n).isSome) then refuse s .notFound
      else (s.openEntry (rd16 t1 t0)).elim (refuse s .state) fun x => s.scaleLane x.1 x.2 (rd32 k3 k2 k1 k0) := by
  unfold decideScaleResult
  dsimp only [decodeScaleResult, withArgs_some]
  cases s.openEntry (rd16 t1 t0) <;> rfl

section
variable {s : State} {t1 t0 k3 k2 k1 k0 : Byte} {src hi lo : Byte} {rest : List Byte}
  (hin : ¬(rd16 t1 t0 = 0 ∨ 4000000 < rd32 k3 k2 k1 k0))
include hin

theorem decideScaleResult_of_absent (h : ∀ n e, (s.lane n).recon = some e → e.tag ≠ rd16 t1 t0) :
    decideScaleResult { src, tagHi := hi, tagLo := lo, args := t1 :: t0 :: k3 :: k2 :: k1 :: k0 :: rest } s =
      refuse s .notFound := by
  rw [decideScaleResult_of, if_neg hin, if_pos ((s.not_any_entryOf_iff _).mpr h)]

theorem decideScaleResult_of_present (h : ∃ n e, (s.lane n).recon = some e ∧ e.tag = rd16 t1 t0) :
    decideScaleResult { src, tagHi := hi, tagLo := lo, args := t1 :: t0 :: k3 :: k2 :: k1 :: k0 :: rest } s =
      (s.openEntry (rd16 t1 t0)).elim (refuse s .state) fun x => s.scaleLane x.1 x.2 (rd32 k3 k2 k1 k0) := by
  obtain ⟨n, e, hrecon, htag⟩ := h
  rw [decideScaleResult_of, if_neg hin, if_neg fun hnone => (s.not_any_entryOf_iff _).mp hnone n e hrecon htag]

theorem decideScaleResult_of_reconciled (h : ∃ n e, (s.lane n).recon = some e ∧ e.tag = rd16 t1 t0)
    (hdone : ∀ n e, (s.lane n).recon = some e → e.tag = rd16 t1 t0 → e.reconciled = true) :
    decideScaleResult { src, tagHi := hi, tagLo := lo, args := t1 :: t0 :: k3 :: k2 :: k1 :: k0 :: rest } s =
      refuse s .state := by
  rw [decideScaleResult_of_present hin h, State.openEntry_eq_none hdone, Option.elim_none]

theorem decideScaleResult_of_open {n : LaneId} {e : ReconEntry} (hrecon : (s.lane n).recon = some e)
    (htag : e.tag = rd16 t1 t0) (hopen : e.reconciled = false)
    (hlowest : ∀ m x, laneNum m < laneNum n → (s.lane m).recon = some x → x.tag = rd16 t1 t0 → x.reconciled = true) :
    decideScaleResult { src, tagHi := hi, tagLo := lo, args := t1 :: t0 :: k3 :: k2 :: k1 :: k0 :: rest } s =
      s.scaleLane n e (rd32 k3 k2 k1 k0) := by
  rw [decideScaleResult_of_present hin ⟨n, e, hrecon, htag⟩,
    State.openEntry_of_lowest hrecon htag hopen hlowest, Option.elim_some]

end

/-- Settles O57: the checks in their order choose the entry, and the decision against it marks it and leaves
`Lane.factorAfter` as the lane's factor. -/
theorem scaleResultCorrectsTheMeterFactor : Obligations.ScaleResultCorrectsTheMeterFactor := by
  intro s src hi lo t1 t0 k3 k2 k1 k0 rest ha body tag kg a refused
  refine ⟨fun hout => ?badArg, fun htag hkg => ?inRange⟩
  case badArg =>
    show exec _ _ = _
    rw [exec_scaleResult ha, decideScaleResult_of, if_pos hout, refuse_deliver]
    rfl
  case inRange =>
    have hin : ¬(tag = 0 ∨ 4000000 < kg) := not_or.mpr ⟨htag, not_lt.mpr hkg⟩
    refine ⟨fun habsent => ?notFound, fun hpresent hdone => ?allReconciled,
      fun n e hrecon het hopen hlowest => ?decided⟩
    case notFound =>
      show exec _ _ = _
      rw [exec_scaleResult ha, decideScaleResult_of_absent (s := a) hin habsent, refuse_deliver]
      rfl
    case allReconciled =>
      show exec _ _ = _
      rw [exec_scaleResult ha, decideScaleResult_of_reconciled (s := a) hin hpresent hdone, refuse_deliver]
      rfl
    case decided =>
      intro l p difference outside correction factor
      rw [exec_scaleResult ha, decideScaleResult_of_open (s := a) hin hrecon het hopen hlowest, State.scaleLane_deliver]
      simp only [Lane.factorAfter, outsideWindow_iff]
      rfl

end Sys2Proof.Machine
end

section
/-! SUPPORT. IDENT and ROUTE_READ (R155, R181, R191): the bytes they carry, and O45. -/

namespace Sys2Proof.Machine

/-! ### The route table in index order (R155) -/

theorem State.routes_toList (s : State) : s.routes.toList = (List.range 16).map s.routeAt := by
  refine List.ext_getElem (by simp) fun i hi _ => ?_
  have hi16 : i < 16 := by simpa using hi
  simp [State.routeAt, hi16]

/-! ### The two bytes of an entry (R191) -/

@[simp] theorem routeBytes_none : routeBytes none = [0, 0] := rfl

@[simp] theorem routeBytes_head (a : Byte) (n : LaneId) :
    routeBytes (some (.head a n)) = [a, BitVec.ofNat 8 (laneNum n)] := rfl

/-- Bit 7 marks the set, bits 0 to 3 are its lanes. -/
@[simp] theorem routeBytes_isolation (a : Byte) (ls : PerLane Bool) :
    routeBytes (some (.isolation a ls)) =
      [a, 128#8 ||| (if ls.l0 then 1 else 0) ||| (if ls.l1 then 2 else 0) ||| (if ls.l2 then 4 else 0)
        ||| (if ls.l3 then 8 else 0)] := rfl

/-! ### The two commands -/

theorem exec_ident {s : State} {src hi lo : Byte} {args : List Byte} (h : s.Answers src (0x01 :: hi :: lo :: args)) :
    exec (.ident src (hi :: lo :: args)) s =
      .next ((decideIdent { src, tagHi := hi, tagLo := lo, args } (s.asked src (0x01 :: hi :: lo :: args))).deliver
        0x01 { src, tagHi := hi, tagLo := lo, args }) :=
  congrArg Host.Outcome.next (State.request_of_answers h decideIdent)

theorem exec_routeRead {s : State} {src hi lo : Byte} {args : List Byte}
    (h : s.Answers src (0x04 :: hi :: lo :: args)) :
    exec (.routeRead src (hi :: lo :: args)) s =
      .next ((decideRouteRead { src, tagHi := hi, tagLo := lo, args } (s.asked src (0x04 :: hi :: lo :: args))).deliver
        0x04 { src, tagHi := hi, tagLo := lo, args }) :=
  congrArg Host.Outcome.next (State.request_of_answers h decideRouteRead)

/-- IDENT is carried out whatever its arguments: the constants of R181, high byte first, and the straps. -/
theorem decideIdent_eq (a : Asked) (s : State) :
    decideIdent a s = accept s [0x53, 0x54, 0x01, 0xA2, 3, 4, 16, 4, 24, s.straps.zeroExtend 8, 0] := rfl

/-- ROUTE_READ is carried out whatever its arguments: every index in order, used or not. -/
theorem decideRouteRead_eq (a : Asked) (s : State) :
    decideRouteRead a s = accept s ((List.range 16).flatMap fun i => routeBytes (s.routeAt i)) := by
  unfold decideRouteRead
  rw [State.routes_toList, List.flatMap_map]

/-- Settles O45: each request is its owner's decision, which leaves the unit as it is; the table's bytes are compared
entry by entry. -/
theorem identAndRouteReadReport : Obligations.IdentAndRouteReadReport := by
  refine fun s src hi lo args => ⟨fun ha => ?ident, fun ha => ?routeRead⟩
  case ident =>
    rw [exec_ident ha, decideIdent_eq, accept_deliver]
    rfl
  case routeRead =>
    rw [exec_routeRead ha, decideRouteRead_eq, accept_deliver]
    refine congrArg (fun entry => Host.Outcome.next ((s.asked src (0x04 :: hi :: lo :: args)).replying src
      ([0x04, hi, lo, 0] ++ (List.range 16).flatMap entry))) (funext fun i => ?_)
    rw [State.asked_routeAt]
    rcases s.routeAt i with _ | ⟨a, n⟩ | ⟨a, ls⟩
    · exact routeBytes_none
    · exact routeBytes_head a n
    · exact routeBytes_isolation a ls

end Sys2Proof.Machine
end

section
/-! SUPPORT. Metering and trims (chapters 4 and 7): the bound of a curve's flow, the residues, the meter factor and the
trims under everything a command can do to a lane engine, and O8. -/

namespace Sys2Proof.Machine

/-! ### The flow of a curve (R45, R60) -/

/-- Interpolation between two breakpoints stays between their flows, whatever their forces. -/
theorem interpolated_le {p q : Breakpoint} {a bound : Nat} (hp : p.flow ≤ bound) (hq : q.flow ≤ bound)
    (ha : a < q.force) : p.flow + (a - p.force) * (q.flow - p.flow) / (q.force - p.force) ≤ bound := by
  have hstep : (a - p.force) * (q.flow - p.flow) / (q.force - p.force) ≤ q.flow - p.flow :=
    Nat.div_le_of_le_mul (Nat.mul_le_mul_right _ (by omega))
  by_cases hrise : p.flow ≤ q.flow
  · omega
  · rw [Nat.sub_eq_zero_of_le (by omega : q.flow ≤ p.flow), Nat.mul_zero, Nat.zero_div]
    exact hp

theorem curveFlowAt_le {bound : Nat} : ∀ {points : List Breakpoint}, (∀ p ∈ points, p.flow ≤ bound) → ∀ a : Nat,
    curveFlowAt points a ≤ bound
  | [], _, _ => Nat.zero_le _
  | [p], h, _ => h p List.mem_cons_self
  | p :: q :: rest, h, a => by
    obtain ⟨hp, htail⟩ := List.forall_mem_cons.mp h
    unfold curveFlowAt
    split
    · exact interpolated_le hp (htail q List.mem_cons_self) ‹_›
    · exact curveFlowAt_le htail a

theorem curveFlow_le {bound : Nat} {points : List Breakpoint} (h : ∀ p ∈ points, p.flow ≤ bound) (a : Int) :
    curveFlow points a ≤ bound := by
  unfold curveFlow
  split
  · exact Nat.zero_le _
  · exact curveFlowAt_le h _

theorem Bank.FlowsBounded.curveFlow_le {b : Bank} (h : b.FlowsBounded) (r : Regime) (a : Int) :
    curveFlow (b.curves.get r).points a ≤ 200000 :=
  Machine.curveFlow_le (fun p hp => h r p (List.mem_of_mem_take hp)) a

/-- A slot written with a flow in range leaves every flow of the bank in range (R51). -/
theorem Bank.FlowsBounded.writeSlot {b : Bank} (h : b.FlowsBounded) (g : Regime) (count index : Nat) {p : Breakpoint}
    (hp : p.flow ≤ 200000) : (b.writeSlot g count index p).FlowsBounded := by
  intro r x hx
  unfold Bank.writeSlot at hx
  rw [PerRegime.get_set] at hx
  split at hx
  · rw [Curve.write, Vector.toList_setIfInBounds] at hx
    rcases List.mem_or_eq_of_mem_set hx with hold | rfl
    · exact h g x hold
    · exact hp
  · exact h r x hx

theorem Bank.flowsBounded_default : Bank.default.FlowsBounded := by
  intro r
  cases r <;> decide

/-! ### Stage 4 (R60 to R65) -/

/-- A curve flow in range corrected by a meter factor in range gives a Q in range (R62). -/
theorem corrected_le {q factor : Nat} (hq : q ≤ 200000) (hf : factor ≤ 11000) : q * factor / 10000 ≤ 220000 :=
  Nat.div_le_of_le_mul ((Nat.mul_le_mul hq hf).trans (by decide))

/-- The residues below 10000 and the manual total within 32 bits (R63, R65). -/
def Integrator.InRange (g : Integrator) : Prop :=
  g.residue ≤ 9999 ∧ g.manualResidue ≤ 9999 ∧ g.manualTotal ≤ 4294967295

theorem Lane.meterInRange_iff (l : Lane) :
    l.MeterInRange ↔ (9000 ≤ l.flow.meterFactor ∧ l.flow.meterFactor ≤ 11000) ∧ l.flow.flow ≤ 220000
      ∧ l.integ.InRange ∧ l.flow.active.FlowsBounded ∧ l.flow.staged.FlowsBounded := by
  unfold Lane.MeterInRange Integrator.InRange
  simp only [and_assoc]

theorem Integrator.InRange.addGrams {g : Integrator} (h : g.InRange) (p : Nat) : (g.addGrams p).InRange := by
  obtain ⟨-, hmanual⟩ := h
  exact ⟨Nat.le_of_lt_succ (Nat.mod_lt _ (by decide)), hmanual⟩

theorem Integrator.InRange.addManual {g : Integrator} (h : g.InRange) (p : Nat) : (g.addManual p).InRange := by
  have hres := h.1
  unfold Integrator.addManual
  split
  · exact h
  · split
    · exact ⟨hres, Nat.zero_le _, le_rfl⟩
    · exact ⟨hres, Nat.le_of_lt_succ (Nat.mod_lt _ (by decide)), not_lt.mp ‹_›⟩

theorem Lane.MeterInRange.stage4 {l : Lane} (h : l.MeterInRange) (r : SampleRecord) (targetKg : Nat) :
    (l.stage4 r targetKg).1.MeterInRange := by
  obtain ⟨hfactor, -, hinteg, hactive, hstaged⟩ := l.meterInRange_iff.mp h
  refine (Lane.meterInRange_iff _).mpr
    ⟨hfactor, corrected_le (hactive.curveFlow_le _ _) hfactor.2, ?_, hactive, hstaged⟩
  unfold Lane.stage4
  dsimp only
  split_ifs
  · exact hinteg
  · exact hinteg.addManual _
  · exact hinteg.addGrams _
  · exact hinteg

/-! ### The meter factor (R130) -/

theorem correctedFactor_bounds (e : ReconEntry) (s gain factor : Nat) :
    9000 ≤ correctedFactor e s gain factor ∧ correctedFactor e s gain factor ≤ 11000 := by
  unfold correctedFactor
  extract_lets
  omega

theorem Lane.MeterInRange.reconcile {l : Lane} (h : l.MeterInRange) (e : ReconEntry) (netKg : Nat) :
    (l.reconcile e netKg).1.MeterInRange := by
  unfold Lane.reconcile
  dsimp only
  split
  · exact h
  · obtain ⟨-, hrest⟩ := l.meterInRange_iff.mp h
    exact (Lane.meterInRange_iff _).mpr ⟨correctedFactor_bounds _ _ _ _, hrest⟩

/-! ### Every act on a lane engine -/

theorem meterInRange_laneOps (routed : LaneId → Prop) : LaneOps routed fun _ l => l.MeterInRange where
  stage4 _ _ r k h := h.stage4 r k
  reconcile _ _ e kg h := h.reconcile e kg
  apply _ l _ h := by
    obtain ⟨hfactor, hflow, hinteg, -, hstaged⟩ := l.meterInRange_iff.mp h
    exact (Lane.meterInRange_iff _).mpr ⟨hfactor, hflow, hinteg, hstaged, hstaged⟩
  slot _ l g count index b _ _ _ hb _ h := by
    obtain ⟨hfactor, hflow, hinteg, hactive, hstaged⟩ := l.meterInRange_iff.mp h
    exact (Lane.meterInRange_iff _).mpr
      ⟨hfactor, hflow, hinteg, hactive, hstaged.writeSlot g count index hb⟩
  restarted _ l _ h := by
    obtain ⟨hfactor, -, ⟨-, hmanual⟩, hactive, -⟩ := l.meterInRange_iff.mp h
    exact (Lane.meterInRange_iff _).mpr ⟨hfactor, Nat.zero_le _, ⟨Nat.zero_le _, hmanual⟩, hactive, hactive⟩
  fill _ l h := by
    obtain ⟨hfactor, hflow, ⟨-, hmanual⟩, hbanks⟩ := l.meterInRange_iff.mp h
    exact (Lane.meterInRange_iff _).mpr ⟨hfactor, hflow, ⟨Nat.zero_le _, hmanual⟩, hbanks⟩
  total _ l h := by
    obtain ⟨hfactor, hflow, ⟨hres, -⟩, hbanks⟩ := l.meterInRange_iff.mp h
    exact (Lane.meterInRange_iff _).mpr ⟨hfactor, hflow, ⟨hres, Nat.zero_le _, Nat.zero_le _⟩, hbanks⟩
  noFlow _ l h := by
    obtain ⟨hfactor, -, hrest⟩ := l.meterInRange_iff.mp h
    exact (Lane.meterInRange_iff _).mpr ⟨hfactor, Nat.zero_le _, hrest⟩
  enterService _ l h := by
    obtain ⟨hfactor, -, hrest⟩ := l.meterInRange_iff.mp h
    exact (Lane.meterInRange_iff _).mpr ⟨hfactor, Nat.zero_le _, hrest⟩
  silenced _ l h := by
    obtain ⟨hfactor, -, hrest⟩ := l.meterInRange_iff.mp h
    exact (Lane.meterInRange_iff _).mpr ⟨hfactor, Nat.zero_le _, hrest⟩
  powerOn _ := (Lane.meterInRange_iff _).mpr ⟨by decide, by decide, ⟨by decide, by decide, by decide⟩,
    Bank.flowsBounded_default, Bank.flowsBounded_default⟩
  learn _ l b r h := by
    unfold Lane.learn
    split <;> exact h
  stage2 _ l r h := by
    unfold Lane.stage2
    split
    · dsimp only
      split <;> exact h
    · exact h
  seq _ _ _ h e _ := by rw [e]; exact h
  mode _ _ _ _ h := h
  counters _ _ _ _ h := h
  marks _ _ _ _ h := h
  recon _ _ _ h := h
  report _ _ _ _ h := h
  condition _ _ _ _ _ _ h := h
  stage3 _ _ _ h := h
  calibrate _ _ h := h
  overrange _ _ _ h := h
  param _ _ _ _ _ _ h := h
  commit _ _ _ h := h

/-! ### Trims (R119) -/

/-- A value clamped lies within plus or minus the limit (R121, R123). -/
theorem clampTo_bounds (limit : Nat) (x : Int) : -(limit : Int) ≤ clampTo limit x ∧ clampTo limit x ≤ limit := by
  unfold clampTo
  omega

theorem Lane.TrimsInLimit.learn {l : Lane} (h : l.TrimsInLimit) (cancelNoted : Bool) (r : CompResult) :
    (l.learn cancelNoted r).1.TrimsInLimit := by
  unfold Lane.learn
  split
  · intro g
    dsimp only
    rw [PerRegime.get_set]
    split
    · exact clampTo_bounds l.params.trimLimit _
    · exact h g
  · exact h

/-- The trims change by learning and by application only, which both clamp them to the limit that is then active. -/
theorem trimsInLimit_laneOps (routed : LaneId → Prop) : LaneOps routed fun _ l => l.TrimsInLimit where
  learn _ _ b r h := h.learn b r
  apply _ l _ _ r := by cases r <;> exact clampTo_bounds _ _
  powerOn _ r := by cases r <;> decide
  reconcile _ l e kg h := by
    unfold Lane.reconcile
    dsimp only
    split <;> exact h
  stage2 _ l r h := by
    unfold Lane.stage2
    split
    · dsimp only
      split <;> exact h
    · exact h
  stage4 _ _ _ _ h := h
  seq _ _ _ h e _ := by rw [e]; exact h
  mode _ _ _ _ h := h
  counters _ _ _ _ h := h
  marks _ _ _ _ h := h
  recon _ _ _ h := h
  report _ _ _ _ h := h
  condition _ _ _ _ _ _ h := h
  stage3 _ _ _ h := h
  calibrate _ _ h := h
  enterService _ _ h := h
  noFlow _ _ h := h
  overrange _ _ _ h := h
  silenced _ _ h := h
  fill _ _ h := h
  total _ _ h := h
  restarted _ _ _ h := h
  param _ _ _ _ _ _ h := h
  slot _ _ _ _ _ _ _ _ _ _ _ h := h
  commit _ _ _ h := h

/-- Settles O8: both are properties of lane engines that every step keeps. -/
theorem meteringAndTrimsStayInRange : Obligations.MeteringAndTrimsStayInRange :=
  ⟨fun s _ h hstep => step_every (meterInRange_laneOps fun n => (s.headOf n).isSome = true) h hstep,
    fun s _ h hstep => step_every (trimsInLimit_laneOps fun n => (s.headOf n).isSome = true) h hstep⟩

end Sys2Proof.Machine
end

section
/-! SUPPORT. The history and the regimes (chapters 1 and 3): what a sample and an application leave of the averaging
history, the classifier's three regimes step by step, and O9. -/

namespace Sys2Proof.Machine

/-! ### The history (R12, R13) -/

/-- The entry lies in the 16-bit signed range. -/
def InSat16 (x : Int) : Prop := -32768 ≤ x ∧ x ≤ 32767

/-- An average lies where the entries lie. -/
theorem average_inSat16 {h : List Int} (hh : ∀ x ∈ h, InSat16 x) : InSat16 (average h) := by
  have hlow : (h.length : Int) * (-32768) ≤ h.sum := by
    simpa using List.card_nsmul_le_sum h (-32768) fun x hx => (hh x hx).1
  have hhigh : h.sum ≤ (h.length : Int) * 32767 := by
    simpa using List.sum_le_card_nsmul h 32767 fun x hx => (hh x hx).2
  unfold average InSat16
  rcases Nat.eq_zero_or_pos h.length with hzero | hpos
  · rw [hzero, Nat.cast_zero, Int.tdiv_zero]
    decide
  · have hn : (0 : Int) < h.length := by exact_mod_cast hpos
    rcases Int.le_total 0 h.sum with hsum | hsum
    · rw [Int.tdiv_eq_ediv_of_nonneg hsum]
      exact ⟨(by decide : (-32768 : Int) ≤ 0).trans (Int.ediv_nonneg hsum hn.le),
        Int.ediv_le_of_le_mul hn (by linarith)⟩
    · have hneg : 0 ≤ -h.sum := Int.neg_nonneg_of_nonpos hsum
      have hquot : (-h.sum) / h.length ≤ 32768 := Int.ediv_le_of_le_mul hn (by linarith)
      have hnonneg : 0 ≤ (-h.sum) / h.length := Int.ediv_nonneg hneg hn.le
      rw [← Int.neg_neg h.sum, Int.neg_tdiv, Int.tdiv_eq_ediv_of_nonneg hneg]
      omega

/-- A net force held within the spike limit of an average that is in range stays between the two. -/
theorem limitSpike_inSat16 {h : List Int} (hh : ∀ x ∈ h, InSat16 x) {net : Int} (hnet : InSat16 net) (limit : Nat) :
    InSat16 (limitSpike limit h net).1 := by
  obtain ⟨halow, hahigh⟩ := average_inSat16 hh
  obtain ⟨hlow, hhigh⟩ := hnet
  unfold limitSpike InSat16
  dsimp only
  split_ifs <;> dsimp only <;> omega

theorem length_pushHistory {window : Nat} {h : List Int} (hw : h.length ≤ window) (net : Int) :
    (pushHistory window h net).length ≤ window := by
  unfold pushHistory
  dsimp only
  split <;> simp_all

theorem mem_of_mem_pushHistory {window : Nat} {h : List Int} {net x : Int} (hx : x ∈ pushHistory window h net) :
    x ∈ h ∨ x = net := by
  have hmem : x ∈ h ++ [net] := by
    unfold pushHistory at hx
    dsimp only at hx
    split at hx
    · exact List.mem_of_mem_drop hx
    · exact hx
  simpa using hmem

theorem Lane.HistoryInWindow.condition {l : Lane} (h : l.HistoryInWindow) {m : Meas} (hgate : m.gate ≤ 1000)
    (first : Bool) (interval : Nat) : (l.condition m first interval).1.HistoryInWindow := by
  obtain ⟨hlength, hrange, -⟩ := h
  refine ⟨length_pushHistory hlength _, fun x hx => ?_, fun g hg => ?_⟩
  · rcases mem_of_mem_pushHistory hx with hold | rfl
    · exact hrange x hold
    · exact limitSpike_inSat16 hrange (sat16_bounds (m.force - l.zero.tare)) l.params.spikeLimit
  · exact Option.some.inj hg ▸ hgate

/-- A bank with another window empties the history, and one with the same window keeps its bound (R55). -/
theorem Lane.HistoryInWindow.applyBank {l : Lane} (h : l.HistoryInWindow) : l.applyBank.1.HistoryInWindow := by
  obtain ⟨hlength, hrange, hgate⟩ := h
  by_cases hsame : l.flow.staged.params.window = l.params.window
  · have hcond : l.applyBank.1.cond = l.cond := if_pos hsame
    unfold Lane.HistoryInWindow
    rw [hcond]
    exact ⟨hlength.trans_eq hsame.symm, hrange, hgate⟩
  · have hcond : l.applyBank.1.cond = l.cond.clearHistory := if_neg hsame
    unfold Lane.HistoryInWindow
    rw [hcond]
    exact ⟨Nat.zero_le _, nofun, hgate⟩

/-- A lane whose history is emptied, its last gate position kept. -/
theorem Lane.historyInWindow_of_empty {l : Lane} (hempty : l.cond.history = [])
    (hgate : ∀ g, l.cond.lastGate = some g → g ≤ 1000) : l.HistoryInWindow :=
  ⟨by rw [hempty]; exact Nat.zero_le _, by rw [hempty]; nofun, hgate⟩

theorem historyInWindow_laneOps (routed : LaneId → Prop) : LaneOps routed fun _ l => l.HistoryInWindow where
  condition _ _ _ first interval hgate h := h.condition hgate first interval
  apply _ _ _ h := h.applyBank
  report _ _ m hgate h := ⟨h.1, h.2.1, fun _ hg => Option.some.inj hg ▸ hgate⟩
  calibrate _ _ h := Lane.historyInWindow_of_empty rfl h.2.2
  enterService _ _ h := Lane.historyInWindow_of_empty rfl h.2.2
  silenced _ _ h := Lane.historyInWindow_of_empty rfl h.2.2
  restarted _ _ _ _ := Lane.historyInWindow_of_empty rfl nofun
  powerOn _ := Lane.historyInWindow_of_empty rfl nofun
  learn _ l b r h := by
    unfold Lane.learn
    split <;> exact h
  reconcile _ l e kg h := by
    unfold Lane.reconcile
    dsimp only
    split <;> exact h
  stage2 _ l r h := by
    unfold Lane.stage2
    split
    · dsimp only
      split <;> exact h
    · exact h
  seq _ _ _ h e _ := by rw [e]; exact h
  mode _ _ _ _ h := h
  counters _ _ _ _ h := h
  marks _ _ _ _ h := h
  recon _ _ _ h := h
  stage3 _ _ _ h := h
  stage4 _ _ _ _ h := h
  noFlow _ _ h := h
  overrange _ _ _ h := h
  fill _ _ h := h
  total _ _ h := h
  param _ _ _ _ _ _ h := h
  slot _ _ _ _ _ _ _ _ _ _ _ h := h
  commit _ _ _ h := h

/-! ### The regimes (R33 to R38) -/

/-- The classifier's part of `Lane.RegimesConsistent`. -/
def Classifier.Consistent (c : Classifier) : Prop :=
  c.pressureCand ≠ .flushing ∧ (c.candidate = .flushing → c.active = .flushing)
    ∧ (c.candidate ≠ .flushing → c.candidate = c.pressureCand)

theorem pressureStep_ne_flushing (p : Params) (pressure : Nat) {cand : Regime} (h : cand ≠ .flushing) :
    pressureStep p pressure cand ≠ .flushing := by
  unfold pressureStep
  split_ifs
  · exact nofun
  · exact nofun
  · exact h

/-- The candidate step leaves a candidate other than FLUSHING only where it takes the pressure candidate (R35, R36). -/
theorem Classifier.candidateStep_candidate (c : Classifier) (p : Params) (clip : Clip)
    (h : (c.candidateStep p clip).candidate ≠ .flushing) : (c.candidateStep p clip).candidate = c.pressureCand := by
  unfold Classifier.candidateStep at h ⊢
  dsimp only at h ⊢
  generalize (if clip = .none then c.calmRun + 1 else 0) = calm at h ⊢
  by_cases hflushing : c.candidate = .flushing
  · rw [if_pos hflushing] at h ⊢
    split_ifs at h ⊢
    · rfl
    · exact absurd hflushing h
  · rw [if_neg hflushing] at h ⊢
    split_ifs at h ⊢
    · exact absurd rfl h
    · rfl

theorem Classifier.candidateStep_pressureCand (c : Classifier) (p : Params) (clip : Clip) :
    (c.candidateStep p clip).pressureCand = c.pressureCand := by
  unfold Classifier.candidateStep
  dsimp only
  split_ifs <;> rfl

/-- The switching step touches the active regime and the accumulator only, and a FLUSHING candidate becomes active at
once (R38, R39). -/
theorem Classifier.switchStep_cases (c : Classifier) (p : Params) (previous : Regime) (interval : Nat) :
    (c.switchStep p previous interval).pressureCand = c.pressureCand
      ∧ (c.switchStep p previous interval).candidate = c.candidate
      ∧ (c.candidate = .flushing → (c.switchStep p previous interval).active = .flushing) := by
  unfold Classifier.switchStep
  dsimp only
  by_cases hequal : c.candidate = c.active
  · rw [if_pos hequal]
    exact ⟨rfl, rfl, fun h => hequal.symm.trans h⟩
  rw [if_neg hequal]
  by_cases hflushing : c.candidate = .flushing
  · rw [if_pos hflushing]
    exact ⟨rfl, rfl, fun _ => rfl⟩
  rw [if_neg hflushing]
  generalize (if c.candidate = previous then c.settleAcc + interval else 0) = acc
  split_ifs
  · exact ⟨rfl, rfl, fun h => absurd h hflushing⟩
  · exact ⟨rfl, rfl, fun h => absurd h hflushing⟩

theorem Classifier.Consistent.step {c : Classifier} (h : c.Consistent) (p : Params) (r : SampleRecord) :
    (c.step p r).Consistent := by
  unfold Classifier.step Classifier.Consistent
  dsimp only
  generalize hstart : ({ c with
    pressureCand := pressureStep p r.pressure c.pressureCand
    flushRun := flushStep r.clip c.flushRun } : Classifier) = start
  have hpressure : start.pressureCand ≠ .flushing := by
    rw [← hstart]
    exact pressureStep_ne_flushing p r.pressure h.1
  obtain ⟨hcand, hcandidate, hactive⟩ := (start.candidateStep p r.clip).switchStep_cases p c.candidate r.interval
  rw [hcand, hcandidate, start.candidateStep_pressureCand p r.clip]
  exact ⟨hpressure, hactive, start.candidateStep_candidate p r.clip⟩

theorem Classifier.consistent_cleared : Classifier.cleared.Consistent := ⟨nofun, nofun, fun _ => rfl⟩

theorem Lane.regimesConsistent_iff (l : Lane) : l.RegimesConsistent ↔ l.cls.Consistent := Iff.rfl

theorem regimesConsistent_laneOps (routed : LaneId → Prop) : LaneOps routed fun _ l => l.RegimesConsistent where
  stage3 _ l r h := (l.regimesConsistent_iff.mp h).step l.params r
  enterService _ l _ := l.enterService.regimesConsistent_iff.mpr Classifier.consistent_cleared
  restarted _ l now _ := (l.restarted now).regimesConsistent_iff.mpr Classifier.consistent_cleared
  powerOn _ := Lane.powerOn.regimesConsistent_iff.mpr Classifier.consistent_cleared
  learn _ l b r h := by
    unfold Lane.learn
    split <;> exact h
  reconcile _ l e kg h := by
    unfold Lane.reconcile
    dsimp only
    split <;> exact h
  stage2 _ l r h := by
    unfold Lane.stage2
    split
    · dsimp only
      split <;> exact h
    · exact h
  seq _ _ _ h e _ := by rw [e]; exact h
  mode _ _ _ _ h := h
  counters _ _ _ _ h := h
  marks _ _ _ _ h := h
  recon _ _ _ h := h
  report _ _ _ _ h := h
  condition _ _ _ _ _ _ h := h
  stage4 _ _ _ _ h := h
  apply _ _ _ h := h
  calibrate _ _ h := h
  noFlow _ _ h := h
  overrange _ _ _ h := h
  silenced _ _ h := h
  fill _ _ h := h
  total _ _ h := h
  param _ _ _ _ _ _ h := h
  slot _ _ _ _ _ _ _ _ _ _ _ h := h
  commit _ _ _ h := h

/-- Settles O9: both are properties of lane engines that every step keeps. -/
theorem historyAndRegimesStayConsistent : Obligations.HistoryAndRegimesStayConsistent :=
  ⟨fun s _ h hstep => step_every (historyInWindow_laneOps fun n => (s.headOf n).isSome = true) h hstep,
    fun s _ h hstep => step_every (regimesConsistent_laneOps fun n => (s.headOf n).isSome = true) h hstep⟩

end Sys2Proof.Machine
end

section
/-! SUPPORT. The parameters of both banks (R46, R48 to R50): the ranges by id, what a write leaves of them, and O10. -/

namespace Sys2Proof.Machine

/-! ### The ranges by id (R46) -/

/-- The value lies in the range of an id. -/
def InFixedRange (id v : Nat) : Prop := (fixedRanges.getD id (0, 0)).1 ≤ v ∧ v ≤ (fixedRanges.getD id (0, 0)).2

theorem fixedRanges_nonempty {id : Nat} (h : id ≤ 27) :
    (fixedRanges.getD id (0, 0)).1 ≤ (fixedRanges.getD id (0, 0)).2 := by
  interval_cases id <;> decide

/-- The ranges of R46 by id: the window a power of two, every value within its range, the nominal interval within the
gap limit and p low below p high. -/
theorem Params.inRange_iff (p : Params) :
    p.InRange ↔ p.get 0 ∈ [1, 2, 4, 8, 16, 32] ∧ (∀ id, id ≤ 27 → InFixedRange id (p.get id))
      ∧ p.get 3 ≤ p.get 2 ∧ p.get 7 < p.get 8 := by
  constructor
  · rintro ⟨hwindow, h⟩
    refine ⟨hwindow, fun id hid => ?_, h.2.2.2.2.1, h.2.2.2.2.2.2.2.2.2.1⟩
    have hbound : 1 ≤ p.window ∧ p.window ≤ 32 := by
      simp only [List.mem_cons, List.not_mem_nil, or_false] at hwindow
      omega
    interval_cases id <;> simp only [InFixedRange, fixedRanges, Params.get, List.getD_cons_zero, List.getD_cons_succ] <;>
      omega
  · rintro ⟨hwindow, h, hnominal, hpressure⟩
    have b (id : Nat) (hid : id ≤ 27 := by decide) : InFixedRange id (p.get id) := h id hid
    exact ⟨hwindow, (b 1).2, (b 2).1, (b 2).2, (b 3).1, hnominal, (b 4).2, (b 5).1, (b 5).2, (b 6).2, hpressure, (b 8).2,
      (b 9).1, (b 9).2, (b 10).2, (b 11).1, (b 11).2, (b 12).1, (b 12).2, (b 13).1, (b 13).2, (b 14).2, (b 15).2, (b 16).2,
      (b 17).2, (b 18).2, (b 19).2, (b 20).1, (b 20).2, (b 21).2, (b 22).1, (b 22).2, (b 23).2, (b 24).1, (b 24).2,
      (b 25).2, (b 26).1, (b 26).2, (b 27).1, (b 27).2⟩

/-! ### What a write stores (R48 to R50) -/

theorem windowStored_mem (v : Nat) : windowStored v ∈ [1, 2, 4, 8, 16, 32] := by
  unfold windowStored
  split_ifs <;> decide

/-- The value a write stores lies in the range of its parameter. -/
theorem Params.InRange.stored {p : Params} (h : p.InRange) {id : Nat} (hid : id ≤ 27) (v : Nat) :
    InFixedRange id (p.stored id v) := by
  obtain ⟨-, hrange, -, hpressure⟩ := p.inRange_iff.mp h
  by_cases hwindow : id = 0
  · subst hwindow
    show 1 ≤ windowStored v ∧ windowStored v ≤ 32
    unfold windowStored
    split_ifs <;> decide
  by_cases hnominal : id = 3
  · subst hnominal
    have hgap : 2 ≤ p.gapLimit ∧ p.gapLimit ≤ 1000 := hrange 2 (by decide)
    show 1 ≤ max 1 (min p.gapLimit v) ∧ max 1 (min p.gapLimit v) ≤ 1000
    omega
  by_cases hhigh : id = 8
  · subst hhigh
    have hlow : p.pLow < p.pHigh := hpressure
    have hbound : 0 ≤ p.pHigh ∧ p.pHigh ≤ 6000 := hrange 8 (by decide)
    show 0 ≤ p.stored 8 v ∧ p.stored 8 v ≤ 6000
    rw [p.stored_pHigh]
    split_ifs <;> omega
  · have hle := fixedRanges_nonempty hid
    rw [p.stored_of_fixedRange hid hwindow hnominal hhigh]
    exact ⟨le_max_left _ _, max_le hle (min_le_left _ _)⟩

/-- A partner is changed to a value in its own range (R50). -/
theorem Params.InRange.partner {p : Params} (h : p.InRange) {id v k x : Nat} (hid : id ≤ 27)
    (hp : p.partner id (p.stored id v) = some (k, x)) : InFixedRange k x := by
  have hstored := h.stored hid v
  rcases Params.partner_cases hp with ⟨rfl, rfl⟩ | ⟨rfl, rfl⟩
  · have hgap : 2 ≤ p.stored 2 v ∧ p.stored 2 v ≤ 1000 := hstored
    rw [p.partner_gapLimit] at hp
    split at hp
    · cases hp
      exact ⟨le_of_lt hgap.1, hgap.2⟩
    · exact nomatch hp
  · have hlow : 0 ≤ p.stored 7 v ∧ p.stored 7 v ≤ 5999 := hstored
    rw [p.partner_pLow] at hp
    split at hp
    · cases hp
      exact ⟨Nat.zero_le _, Nat.succ_le_succ hlow.2⟩
    · exact nomatch hp

/-- What a parameter is after a write: the value stored, the partner's new value, or what it was. -/
theorem Params.get_write_cases (p : Params) {id k : Nat} (hid : id ≤ 27) (hk : k ≤ 27) (v : Nat) :
    (k = id ∧ (p.write id v).get k = p.stored id v)
      ∨ (∃ x, p.partner id (p.stored id v) = some (k, x) ∧ (p.write id v).get k = x)
      ∨ (p.write id v).get k = p.get k := by
  by_cases hself : k = id
  · subst hself
    exact .inl ⟨rfl, p.get_write_self hid v⟩
  by_cases hpartner : ∃ x, p.partner id (p.stored id v) = some (k, x)
  · obtain ⟨x, hx⟩ := hpartner
    exact .inr (.inl ⟨x, hx, Params.get_write_partner hx⟩)
  · exact .inr (.inr (p.get_write_of_ne hid hk hself v (not_exists.mp hpartner)))

/-- A parameter that is neither written nor a partner of the written one stays. -/
theorem Params.get_write_of_apart (p : Params) {id k : Nat} (hid : id ≤ 27) (hk : k ≤ 27) (hne : k ≠ id)
    (h2 : ¬(id = 2 ∧ k = 3)) (h7 : ¬(id = 7 ∧ k = 8)) (v : Nat) : (p.write id v).get k = p.get k :=
  p.get_write_of_ne hid hk hne v fun _ hx => (Params.partner_cases hx).elim h2 h7

/-- The nominal interval follows the gap limit (R50). -/
theorem Params.InRange.write_nominal {p : Params} (h : p.InRange) {id : Nat} (hid : id ≤ 27) (v : Nat) :
    (p.write id v).get 3 ≤ (p.write id v).get 2 := by
  obtain ⟨-, hrange, hnominal, -⟩ := p.inRange_iff.mp h
  by_cases hgap : id = 2
  · subst hgap
    rw [p.get_write_self hid]
    by_cases hless : p.stored 2 v < p.nominalInterval
    · rw [Params.get_write_partner ((p.partner_gapLimit _).trans (if_pos hless))]
    · rw [p.get_write_of_ne hid (by decide) (by decide) v fun x hx => nomatch ((if_neg hless).symm.trans hx)]
      exact not_lt.mp hless
  rw [p.get_write_of_apart hid (by decide) (Ne.symm hgap) (by omega) (by omega)]
  by_cases hself : id = 3
  · subst hself
    have hbound : 2 ≤ p.gapLimit ∧ p.gapLimit ≤ 1000 := hrange 2 (by decide)
    rw [p.get_write_self hid, p.stored_nominalInterval]
    exact max_le ((by decide : 1 ≤ 2).trans hbound.1) (min_le_left _ _)
  · rw [p.get_write_of_apart hid (by decide) (Ne.symm hself) (by omega) (by omega)]
    exact hnominal

/-- p high follows p low (R50). -/
theorem Params.InRange.write_pressure {p : Params} (h : p.InRange) {id : Nat} (hid : id ≤ 27) (v : Nat) :
    (p.write id v).get 7 < (p.write id v).get 8 := by
  obtain ⟨-, -, -, hpressure⟩ := p.inRange_iff.mp h
  by_cases hlow : id = 7
  · subst hlow
    rw [p.get_write_self hid]
    by_cases hmeets : p.pHigh ≤ p.stored 7 v
    · rw [Params.get_write_partner ((p.partner_pLow _).trans (if_pos hmeets))]
      exact Nat.lt_succ_self _
    · rw [p.get_write_of_ne hid (by decide) (by decide) v fun x hx => nomatch ((if_neg hmeets).symm.trans hx)]
      exact not_le.mp hmeets
  rw [p.get_write_of_apart hid (by decide) (Ne.symm hlow) (by omega) (by omega)]
  by_cases hself : id = 8
  · subst hself
    rw [p.get_write_self hid, p.stored_pHigh]
    split_ifs with hle
    · exact Nat.lt_succ_self _
    · exact not_le.mp hle
  · rw [p.get_write_of_apart hid (by decide) (Ne.symm hself) (by omega) (by omega)]
    exact hpressure

/-- A write of any value keeps the ranges and the coupled pairs. -/
theorem Params.InRange.write {p : Params} (h : p.InRange) {id : Nat} (hid : id ≤ 27) (v : Nat) :
    (p.write id v).InRange := by
  obtain ⟨hwindow, hrange, -⟩ := p.inRange_iff.mp h
  refine (Params.inRange_iff _).mpr ⟨?window, fun k hk => ?range, h.write_nominal hid v, h.write_pressure hid v⟩
  case window =>
    by_cases hself : id = 0
    · subst hself
      rw [p.get_write_self hid]
      exact windowStored_mem v
    · rw [p.get_write_of_apart hid (by decide) (Ne.symm hself) (by omega) (by omega)]
      exact hwindow
  case range =>
    rcases p.get_write_cases hid hk v with ⟨rfl, heq⟩ | ⟨x, hx, heq⟩ | heq
    · exact heq ▸ h.stored hid v
    · exact heq ▸ h.partner hid hx
    · exact heq ▸ hrange k hk

theorem Params.inRange_default : Params.default.InRange := by
  refine (Params.inRange_iff _).mpr ⟨by decide, fun id hid => ?_, by decide, by decide⟩
  unfold InFixedRange
  interval_cases id <;> decide

/-- The parameters of both banks under everything a command can do to a lane engine: only a write and a copy of one bank
over the other touch them. -/
theorem banksInRange_laneOps (routed : LaneId → Prop) : LaneOps routed fun _ l => l.BanksInRange where
  param _ _ _ v hid _ h := ⟨h.1, h.2.write hid v⟩
  apply _ _ _ h := ⟨h.2, h.2⟩
  restarted _ _ _ h := ⟨h.1, h.1⟩
  powerOn _ := ⟨Params.inRange_default, Params.inRange_default⟩
  learn _ l b r h := by
    unfold Lane.learn
    split <;> exact h
  reconcile _ l e kg h := by
    unfold Lane.reconcile
    dsimp only
    split <;> exact h
  stage2 _ l r h := by
    unfold Lane.stage2
    split
    · dsimp only
      split <;> exact h
    · exact h
  seq _ _ _ h e _ := by rw [e]; exact h
  mode _ _ _ _ h := h
  counters _ _ _ _ h := h
  marks _ _ _ _ h := h
  recon _ _ _ h := h
  report _ _ _ _ h := h
  condition _ _ _ _ _ _ h := h
  stage3 _ _ _ h := h
  stage4 _ _ _ _ h := h
  calibrate _ _ h := h
  enterService _ _ h := h
  noFlow _ _ h := h
  overrange _ _ _ h := h
  silenced _ _ h := h
  fill _ _ h := h
  total _ _ h := h
  slot _ _ _ _ _ _ _ _ _ _ _ h := h
  commit _ _ _ h := h

/-- Settles O10: the ranges are a property of lane engines that every step keeps. -/
theorem parametersStayInRange : Obligations.ParametersStayInRange :=
  fun s _ h hstep => step_every (banksInRange_laneOps fun n => (s.headOf n).isSome = true) h hstep

end Sys2Proof.Machine
end

section
/-! SUPPORT. The route table (chapter 9): what a table's entries are after a write, whose head is routed, and O11 and
O12. -/

namespace Sys2Proof.Machine

/-! ### Entries and heads -/

theorem State.routeAt_putRoute (s : State) {i : Nat} (hi : i < 16) (e : Option RouteEntry) (j : Nat) :
    (s.putRoute i e).routeAt j = if j = i then e else s.routeAt j := by
  unfold State.routeAt State.putRoute
  rw [Vector.getElem?_setIfInBounds]
  by_cases h : i = j
  · subst h
    simp [hi]
  · simp [h, Ne.symm h]

theorem State.routeAt_congr {s t : State} (h : t.routes = s.routes) (i : Nat) : t.routeAt i = s.routeAt i := by
  simp only [State.routeAt, h]

/-- A lane's head is routed just where some entry is HEAD for it. -/
theorem State.headOf_isSome_iff {s : State} {n : LaneId} :
    (s.headOf n).isSome = true ↔ ∃ i a, s.routeAt i = some (.head a n) := by
  unfold State.headOf
  rw [State.routes_toList, List.findSome?_isSome_iff]
  constructor
  · rintro ⟨e, he, hsome⟩
    obtain ⟨i, -, rfl⟩ := List.mem_map.mp he
    split at hsome
    · rename_i a m heq
      split at hsome
      · subst_vars
        exact ⟨i, a, heq⟩
      · cases hsome
    · cases hsome
  · rintro ⟨i, a, h⟩
    exact ⟨some (.head a n), List.mem_map.mpr ⟨i, List.mem_range.mpr (State.routeAt_lt h), h⟩, by simp⟩

theorem State.headOf_congr {s t : State} (h : t.routes = s.routes) (n : LaneId) : t.headOf n = s.headOf n := by
  simp only [State.headOf, h]

/-! ### The constraints of R151 -/

theorem sameHead_comm (e f : RouteEntry) : sameHead e f = sameHead f e := by
  cases e <;> cases f
  case head.head a n b m => exact BEq.comm
  all_goals rfl

theorem setsMeet_comm (a b : PerLane Bool) : setsMeet a b = setsMeet b a := by
  simp only [setsMeet, Bool.and_comm]

theorem sharedIsolation_comm (e f : RouteEntry) : sharedIsolation e f = sharedIsolation f e := by
  cases e <;> cases f
  case isolation.isolation a x b y => exact setsMeet_comm x y
  all_goals rfl

/-- The constraints are about the table and the strapped address alone. -/
theorem State.RoutesSound.congr {s t : State} (h : s.RoutesSound) (hroutes : t.routes = s.routes)
    (hstraps : t.straps = s.straps) : t.RoutesSound := by
  have haddress : t.address = s.address := by simp only [State.address, hstraps]
  obtain ⟨hsound, hapart⟩ := h
  refine ⟨fun i e he => ?_, fun i j hij e f he hf => ?_⟩
  · rw [haddress]
    exact hsound i e (State.routeAt_congr hroutes i ▸ he)
  · exact hapart i j hij e f (State.routeAt_congr hroutes i ▸ he) (State.routeAt_congr hroutes j ▸ hf)

/-- An unused table meets the constraints. -/
theorem routesSound_powerOn (straps : BitVec 7) (q : List Instr) : (State.powerOn straps q).RoutesSound := by
  have hnone : ∀ i, (State.powerOn straps q).routeAt i = none := by
    intro i
    by_cases hi : i < 16
    · simp [State.routeAt, State.powerOn, hi]
    · simp [State.routeAt, hi]
  exact ⟨fun i e he => absurd he (by rw [hnone]; exact nofun), fun i j _ e f he _ => absurd he (by rw [hnone]; exact nofun)⟩

/-- An entry that passes the checks of R152, or none, may replace any entry. -/
theorem State.RoutesSound.putRoute {s : State} (h : s.RoutesSound) {i : Nat} (hi : i < 16) {e : Option RouteEntry}
    (hnew : ∀ x, e = some x → x.Sound s.address ∧ ∀ j o, j ≠ i → s.routeAt j = some o →
      routeAddress o ≠ routeAddress x ∧ sameHead x o = false ∧ sharedIsolation x o = false) :
    (s.putRoute i e).RoutesSound := by
  obtain ⟨hsound, hapart⟩ := h
  refine ⟨fun j x hx => ?_, fun j k hjk x y hx hy => ?_⟩
  · rw [s.routeAt_putRoute hi] at hx
    split at hx
    · exact (hnew x hx).1
    · exact hsound j x hx
  · rw [s.routeAt_putRoute hi] at hx hy
    split at hx
    · rename_i hj
      rw [if_neg fun hk => hjk (hj.trans hk.symm)] at hy
      obtain ⟨haddress, hhead, hiso⟩ := (hnew x hx).2 k y (fun hk => hjk (hj.trans hk.symm)) hy
      exact ⟨haddress.symm, hhead, hiso⟩
    · rename_i hj
      split at hy
      · obtain ⟨haddress, hhead, hiso⟩ := (hnew y hy).2 j x hj hx
        exact ⟨haddress, sameHead_comm y x ▸ hhead, sharedIsolation_comm y x ▸ hiso⟩
      · exact hapart j k hjk x y hx hy

theorem routesSound_storeOps : StoreOps State.RoutesSound where
  only _ _ ho h := h.congr ho.routes ho.straps
  clock _ _ h := h
  lists _ _ _ _ _ h := h
  power := routesSound_powerOn
  pin _ h := h
  startDelimiter _ _ h := h.congr (State.startDelimiter_routes ..) (State.startDelimiter_straps ..)
  bytes _ _ _ h := h.congr (State.putPort_routes ..) (State.putPort_straps ..)
  lineBreak _ _ h := h.congr (State.lineBreak_routes ..) (State.lineBreak_straps ..)
  linkDown _ _ h := h.congr (State.linkDown_routes ..) (State.linkDown_straps ..)
  endDelimiter _ _ h := h.congr (State.endDelimiter_routes ..) (State.endDelimiter_straps ..)
  forwardUp _ _ h := h.congr (State.forwardUp_routes ..) (State.forwardUp_straps ..)
  forwardDown _ _ h := h.congr (State.forwardDown_routes ..) (State.forwardDown_straps ..)
  wrongPort _ h := h
  discard _ h := h
  controller _ _ h := h
  reply _ _ _ _ h := h
  restarted _ h := h
  restartReply _ _ _ h := h
  selectDp _ h := h.congr (State.selectDp_routes ..) (State.selectDp_straps ..)
  selectUp _ h := h.congr (State.selectUp_routes ..) (State.selectUp_straps ..)
  endUp _ h := h
  sent _ h := h
  route _ _ _ hi _ _ hnew h := h.putRoute hi hnew
  post _ _ _ _ h := h
  zeroPorts _ h := h
  zeroUnit _ h := h
  accept _ _ _ h := h

/-- Settles O11: only a write of an entry that passes the checks of R152 changes the table. -/
theorem routeTableStaysConsistent : Obligations.RouteTableStaysConsistent :=
  fun _ _ h hstep => step_keeps routesSound_storeOps.toStateOps h hstep

/-! ### Lanes in service have their heads routed (R88, R152, R154) -/

/-- A lane in service has its head routed. -/
def Lane.HeadRouted (routed : LaneId → Prop) (n : LaneId) (l : Lane) : Prop := l.seq.mode ≠ .outOfService → routed n

/-- Every lane in service has its head routed. -/
def State.HeadsRouted (s : State) : Prop := s.Every (Lane.HeadRouted fun n => (s.headOf n).isSome = true)

theorem headRouted_laneOps (routed : LaneId → Prop) : LaneOps routed (Lane.HeadRouted routed) where
  mode n l m hm h := fun _ => by
    by_cases hmode : l.seq.mode = .outOfService
    · exact (hm hmode).2
    · exact h hmode
  seq n l l' h _ hmode := fun hm => h (hmode ▸ hm)
  powerOn _ := fun hm => absurd rfl hm
  learn _ l b r h := by
    unfold Lane.learn
    split <;> exact h
  reconcile _ l e kg h := by
    unfold Lane.reconcile
    dsimp only
    split <;> exact h
  stage2 _ l r h := by
    unfold Lane.stage2
    split
    · dsimp only
      split <;> exact h
    · exact h
  counters _ _ _ _ h := h
  marks _ _ _ _ h := h
  recon _ _ _ h := h
  report _ _ _ _ h := h
  condition _ _ _ _ _ _ h := h
  stage3 _ _ _ h := h
  stage4 _ _ _ _ h := h
  apply _ _ _ h := h
  calibrate _ _ h := h
  enterService _ _ h := h
  noFlow _ _ h := h
  overrange _ _ _ h := h
  silenced _ _ h := h
  fill _ _ h := h
  total _ _ h := h
  restarted _ _ _ h := h
  param _ _ _ _ _ _ h := h
  slot _ _ _ _ _ _ _ _ _ _ _ h := h
  commit _ _ _ h := h

/-- Stage 1 leaves the mode. -/
theorem Lane.stage1_mode (l : Lane) (m : Meas) : (l.stage1 m).1.seq.mode = l.seq.mode := by
  unfold Lane.stage1
  split
  · rfl
  · dsimp only
    split_ifs <;> rfl

/-- A sample leaves the heads of lanes in service routed, whatever it carries. -/
theorem State.HeadsRouted.takeSample {s : State} (h : s.HeadsRouted) (n : LaneId) (m : Meas) :
    (s.takeSample n m).Every (Lane.HeadRouted fun n => (s.headOf n).isSome = true) := by
  have hops := headRouted_laneOps fun n => (s.headOf n).isSome = true
  have hcontact := State.Every.contact hops h n
  have hstage1 := hcontact.putLane (n := n) (l := (((s.contact n).lane n).stage1 m).1) fun hmode =>
    hcontact n (Lane.stage1_mode _ m ▸ hmode)
  unfold State.takeSample
  dsimp only
  split
  · exact hcontact.onLane fun _ hl => hl
  · split
    · exact State.Every.laterStages hops hstage1 n _
    · exact hstage1

/-- Where the table stays, routed heads are routed heads. -/
theorem State.HeadsRouted.of_every {s t : State}
    (h : t.Every (Lane.HeadRouted fun n => (s.headOf n).isSome = true)) (hroutes : t.routes = s.routes) :
    t.HeadsRouted := fun n hmode =>
  (congrArg Option.isSome (State.headOf_congr hroutes n)).trans (h n hmode)

/-- A write leaves the heads of lanes in service alone (R152 step 2, R154). -/
theorem State.HeadsRouted.putRoute {s : State} (h : s.HeadsRouted) {i : Nat} (hi : i < 16) (e : Option RouteEntry)
    (hold : s.headInService (s.routeAt i) = false) : (s.putRoute i e).HeadsRouted := by
  intro n hmode
  obtain ⟨j, a, hj⟩ := State.headOf_isSome_iff.mp (h n hmode)
  refine State.headOf_isSome_iff.mpr ⟨j, a, ?_⟩
  rw [s.routeAt_putRoute hi, if_neg]
  · exact hj
  · rintro rfl
    rw [hj] at hold
    exact hmode (by simpa [State.headInService] using hold)

theorem State.HeadsRouted.decided {s t : State} (h : s.HeadsRouted) (hd : Decided s t) : t.HeadsRouted := by
  have hops := headRouted_laneOps fun n => (s.headOf n).isSome = true
  have only {u : State} (hu : u.Every (Lane.HeadRouted fun n => (s.headOf n).isSome = true))
      (ho : s.OnlyLanes (fun _ => True) u) : u.HeadsRouted := .of_every hu ho.routes
  cases hd
  case same => exact h
  case route i e hi old new sound => exact h.putRoute hi e old
  case lane n l hseq =>
    exact .of_every (State.Every.putLane h (n := n) (l := l) fun hmode => h n (hseq ▸ hmode)) rfl
  case apply n _ =>
    have hpending := State.Every.onLane (f := fun l => { l with flow := { l.flow with commitPending := true } })
      (n := n) h fun _ hl => hl
    exact only (State.Every.raiseNoteIf (hpending.putLane (hops.apply n _ (by simp) (hpending n))) n _)
      ((s.onlyLanes_onLane (n := n) trivial _).trans (State.onlyLanes_applyBank _ (n := n) trivial))
  case mode n m hm =>
    exact only (State.Every.changeMode hops h n m hm) (State.onlyLanes_changeMode s t trivial (fun _ _ => trivial) m hm)
  case post => exact h
  case unqueue => exact h
  case cancel n d o _ hc =>
    exact only (State.Every.cancelActive hops h n hc) (s.onlyLanes_cancelActive trivial (fun _ _ => trivial) hc)
  case clearFault n _ =>
    exact only (State.Every.enterIdle hops h n) (s.onlyLanes_enterIdle trivial fun _ _ _ _ _ _ => trivial)
  case take => exact h
  case zeroPorts => exact h
  case zeroUnit => exact h
  case acceptRestart src hi lo force _ _ =>
    refine .of_every (State.Every.acceptRestart hops h src hi lo force) ?_
    have ho := State.onlyLanes_closeForRestarts (P := fun _ => True) (fun _ => trivial) s
    unfold State.acceptRestart
    generalize allLanes.foldl State.closeForRestart s = u at ho ⊢
    exact ho.routes
  case restarted => exact .of_every (State.Every.restarted hops h) rfl

/-! ### What an expiry can touch (R90) -/

/-- `t` differs from `s` at most in the time, the lanes and the record store. -/
def State.LanesAndClock (s t : State) : Prop := ∃ c, State.OnlyLanes (fun _ => True) { s with clock := c } t

theorem State.LanesAndClock.refl (s : State) : s.LanesAndClock s := ⟨s.clock, .refl _ _⟩

theorem State.LanesAndClock.of_atExpiry {s t : State} {timer : Timer}
    (h : (s.atExpiry timer).OnlyLanes (fun _ => True) t) : s.LanesAndClock t :=
  ⟨s.timeAt timer, s.atExpiry_eq timer ▸ h⟩

theorem State.LanesAndClock.routes {s t : State} (h : s.LanesAndClock t) : t.routes = s.routes := h.choose_spec.routes

theorem State.LanesAndClock.straps {s t : State} (h : s.LanesAndClock t) : t.straps = s.straps := h.choose_spec.straps

theorem State.silenceExpiry_lanesAndClock (s : State) (n : LaneId) : s.LanesAndClock (s.silenceExpiry n) := by
  unfold State.silenceExpiry
  split
  · exact .of_atExpiry (((State.onlyLanes_onLane _ (n := n) trivial _).trans
      (State.onlyLanes_raiseNote _ (n := n) trivial)).trans (State.onlyLanes_silenceReaction _ (n := n) trivial))
  · exact .refl s

theorem State.openExpiry_lanesAndClock (s : State) (n : LaneId) : s.LanesAndClock (s.openExpiry n) := by
  unfold State.openExpiry
  split
  · dsimp only
    split_ifs
    · split
      · exact .of_atExpiry (((State.onlyLanes_onLane _ (n := n) trivial _).trans
          (State.onlyLanes_onLane _ (n := n) trivial _)).trans (State.onlyLanes_placePosition _ (n := n) trivial _))
      · exact .of_atExpiry ((State.onlyLanes_onLane _ (n := n) trivial _).trans
          (State.onlyLanes_onLane _ (n := n) trivial _))
    · exact .of_atExpiry (((State.onlyLanes_onLane _ (n := n) trivial _).trans
        (State.onlyLanes_placeHeadClose _ (n := n) trivial)).trans (State.onlyLanes_enterFault _ (n := n) trivial _))
    · exact .of_atExpiry (State.onlyLanes_onLane _ (n := n) trivial _)
  · exact .refl s

theorem State.closeExpiry_lanesAndClock (s : State) (n : LaneId) : s.LanesAndClock (s.closeExpiry n) := by
  unfold State.closeExpiry
  split
  · dsimp only
    split_ifs
    · exact .of_atExpiry (((State.onlyLanes_onLane _ (n := n) trivial _).trans
        (State.onlyLanes_placeHeadClose _ (n := n) trivial)).trans (State.onlyLanes_onLane _ (n := n) trivial _))
    · exact .of_atExpiry (((State.onlyLanes_onLane _ (n := n) trivial _).trans
        (State.onlyLanes_placeIsolationClose _ (n := n) trivial)).trans (State.onlyLanes_enterFault _ (n := n) trivial _))
    · exact .of_atExpiry (State.onlyLanes_onLane _ (n := n) trivial _)
  · exact .refl s

theorem State.fallExpiry_lanesAndClock (s : State) (n : LaneId) : s.LanesAndClock (s.fallExpiry n) := by
  unfold State.fallExpiry
  split
  · exact .of_atExpiry (State.onlyLanes_onLane _ (n := n) trivial _)
  · exact .refl s

theorem State.settleExpiry_lanesAndClock (s : State) (n : LaneId) : s.LanesAndClock (s.settleExpiry n) := by
  unfold State.settleExpiry
  split
  · dsimp only
    split_ifs
    · exact .of_atExpiry ((State.onlyLanes_onLane _ (n := n) trivial _).trans
        (State.onlyLanes_endSettling _ (n := n) trivial fun _ _ _ _ _ _ => trivial))
    · exact .of_atExpiry (State.onlyLanes_onLane _ (n := n) trivial _)
  · exact .refl s

theorem State.gangExpiry_lanesAndClock (s : State) (n : LaneId) : s.LanesAndClock (s.gangExpiry n) := by
  unfold State.gangExpiry
  split
  · dsimp only
    split_ifs
    · exact .of_atExpiry ((State.onlyLanes_onLane _ (n := n) trivial _).trans
        (State.onlyLanes_endOrder _ (n := n) trivial (fun _ _ _ _ _ _ => trivial) _))
    · exact .of_atExpiry (State.onlyLanes_onLane _ (n := n) trivial _)
  · exact .refl s

theorem State.boundExpiry_routes (s : State) : s.boundExpiry.routes = s.routes := by
  unfold State.boundExpiry
  split
  · exact State.atExpiry_routes s _
  · rfl

theorem State.transmitEndDp_routes (s : State) : s.transmitEndDp.routes = s.routes := by
  rcases s.transmitEndDp_cases with ⟨-, h⟩ | ⟨_, -, h⟩ | ⟨_, _, -, -, -, -, h⟩
  · rw [h]
  · rw [h]
  · rw [h]
    rfl

theorem headsRouted_stateOps : StateOps State.HeadsRouted where
  power _ _ n := by cases n <;> exact fun hm => absurd rfl hm
  pin _ h := h
  startDelimiter _ p h := .of_every (State.Every.startDelimiter h p) (State.startDelimiter_routes ..)
  bytes _ p _ h := .of_every (State.Every.putPort h p _) (State.putPort_routes ..)
  lineBreak _ p h := .of_every (State.Every.lineBreak h p) (State.lineBreak_routes ..)
  linkDown _ p h := .of_every (State.Every.linkDown h p) (State.linkDown_routes ..)
  endDelimiter _ p h := .of_every (State.Every.endDelimiter h p) (State.endDelimiter_routes ..)
  toSwitch _ _ h := h
  toLanes _ _ h := h
  toResponder _ _ h := h
  pending _ _ h := h
  clock _ _ h := h
  forwardUp _ f h := .of_every (State.Every.forwardUp h f) (State.forwardUp_routes ..)
  forwardDown _ f h := .of_every (State.Every.forwardDown h f) (State.forwardDown_routes ..)
  wrongPort _ h := h
  formError _ _ _ h := .of_every (State.Every.onLane h fun _ hl => hl) rfl
  block _ n _ _ h := .of_every (State.Every.blockFrame (headRouted_laneOps _) h n) rfl
  cutOff s n c _ _ h := .of_every (State.Every.cutOff (headRouted_laneOps _) h n c)
    (s.onlyLanes_cutOff (P := fun _ => True) trivial c).routes
  takeSample s n m _ h := .of_every (h.takeSample n m)
    (s.onlyLanes_takeSample (P := fun _ => True) trivial (fun _ _ => trivial) m).routes
  resume _ _ _ h := .of_every (State.Every.onLane h fun _ hl => hl) rfl
  silenceExpiry s n h := .of_every (State.Every.silenceExpiry (headRouted_laneOps _) h n) (s.silenceExpiry_lanesAndClock n).routes
  openExpiry s n h := .of_every (State.Every.openExpiry (headRouted_laneOps _) h n) (s.openExpiry_lanesAndClock n).routes
  closeExpiry s n h := .of_every (State.Every.closeExpiry (headRouted_laneOps _) h n) (s.closeExpiry_lanesAndClock n).routes
  fallExpiry s n h := .of_every (State.Every.fallExpiry (headRouted_laneOps _) h n) (s.fallExpiry_lanesAndClock n).routes
  settleExpiry s n h := .of_every (State.Every.settleExpiry (headRouted_laneOps _) h n) (s.settleExpiry_lanesAndClock n).routes
  gangExpiry s n h := .of_every (State.Every.gangExpiry (headRouted_laneOps _) h n) (s.gangExpiry_lanesAndClock n).routes
  boundExpiry _ h := .of_every (State.Every.boundExpiry (headRouted_laneOps _) h) (State.boundExpiry_routes ..)
  selectDp _ h := .of_every (State.Every.selectDp h) (State.selectDp_routes ..)
  selectUp _ h := .of_every (State.Every.selectUp (headRouted_laneOps _) h) (State.selectUp_routes ..)
  endUp _ h := h
  endDp _ h := .of_every (State.Every.transmitEnd (headRouted_laneOps _) h .dp) (State.transmitEndDp_routes ..)
  discard _ _ h := h
  controller _ _ _ h := h
  decided _ _ _ hd h := h.decided hd
  reply _ _ _ _ _ h := h

/-! ### Lanes in service are calibrated (R45, R47, R53) -/

/-- Curve counts in bounds, a bank that waits valid, and the active curves valid in service. -/
def Lane.Calibrated (l : Lane) : Prop :=
  l.CalibrationSound ∧ (l.seq.mode ≠ .outOfService → l.flow.active.curvesValid = true)

theorem Bank.countsBounded_default : Bank.default.CountsBounded := by
  intro r
  cases r <;> decide

theorem Bank.CountsBounded.writeSlot {b : Bank} (h : b.CountsBounded) (g : Regime) {count : Nat} (hcount : count ≤ 16)
    (index : Nat) (p : Breakpoint) : (b.writeSlot g count index p).CountsBounded := by
  intro r
  unfold Bank.writeSlot
  rw [PerRegime.get_set]
  split
  · exact hcount
  · exact h r

theorem Bank.curveFails_of_firstFailure {b : Bank} (h : b.firstFailure = none) (r : Regime) :
    curveFails (b.curves.get r).points = none := by
  unfold Bank.firstFailure at h
  repeat' split at h
  · cases h
  · cases h
  · cases h
  · cases r <;> assumption

/-- A bank whose walk finds no failure is valid (R47, R52). -/
theorem Bank.CountsBounded.curvesValid {b : Bank} (h : b.CountsBounded) (hwalk : b.firstFailure = none) :
    b.curvesValid = true := by
  have hvalid : ∀ r, (b.curves.get r).valid = true := fun r => by
    unfold Curve.valid
    rw [Bool.and_eq_true, decide_eq_true_iff, Option.isNone_iff_eq_none]
    exact ⟨h r, Bank.curveFails_of_firstFailure hwalk r⟩
  unfold Bank.curvesValid
  rw [Bool.and_eq_true, Bool.and_eq_true]
  exact ⟨⟨hvalid .settled, hvalid .aerated⟩, hvalid .flushing⟩

theorem calibrated_laneOps (routed : LaneId → Prop) : LaneOps routed fun _ l => l.Calibrated where
  mode n l m hm h := ⟨h.1, fun _ => by
    by_cases hmode : l.seq.mode = .outOfService
    · exact (hm hmode).1
    · exact h.2 hmode⟩
  seq n l l' h e hmode := by
    rw [e]
    exact ⟨h.1, fun hm => h.2 (hmode ▸ hm)⟩
  powerOn _ := ⟨⟨Bank.countsBounded_default, Bank.countsBounded_default, nofun⟩, fun hm => absurd rfl hm⟩
  apply _ _ hpending h := by
    obtain ⟨⟨-, hstaged, hvalid⟩, -⟩ := h
    exact ⟨⟨hstaged, hstaged, nofun⟩, fun _ => hvalid hpending⟩
  param _ _ _ _ _ hpending h := by
    obtain ⟨⟨hactive, hstaged, -⟩, hservice⟩ := h
    exact ⟨⟨hactive, hstaged, fun hset => nomatch hpending.symm.trans hset⟩, hservice⟩
  slot _ _ g _ index b _ hcount _ _ hpending h := by
    obtain ⟨⟨hactive, hstaged, -⟩, hservice⟩ := h
    exact ⟨⟨hactive, hstaged.writeSlot g hcount index b, fun hset => nomatch hpending.symm.trans hset⟩, hservice⟩
  commit _ _ hwalk h := by
    obtain ⟨⟨hactive, hstaged, -⟩, hservice⟩ := h
    exact ⟨⟨hactive, hstaged, fun _ => hstaged.curvesValid hwalk⟩, hservice⟩
  restarted _ _ _ h := by
    obtain ⟨⟨hactive, -, -⟩, hservice⟩ := h
    exact ⟨⟨hactive, hactive, nofun⟩, hservice⟩
  learn _ l b r h := by
    unfold Lane.learn
    split <;> exact h
  reconcile _ l e kg h := by
    unfold Lane.reconcile
    dsimp only
    split <;> exact h
  stage2 _ l r h := by
    unfold Lane.stage2
    split
    · dsimp only
      split <;> exact h
    · exact h
  counters _ _ _ _ h := h
  marks _ _ _ _ h := h
  recon _ _ _ h := h
  report _ _ _ _ h := h
  condition _ _ _ _ _ _ h := h
  stage3 _ _ _ h := h
  stage4 _ _ _ _ h := h
  calibrate _ _ h := h
  enterService _ _ h := h
  noFlow _ _ h := h
  overrange _ _ _ h := h
  silenced _ _ h := h
  fill _ _ h := h
  total _ _ h := h

theorem State.inServiceSound_iff {s : State} :
    s.InServiceSound ↔ s.HeadsRouted ∧ s.Every fun _ l => l.Calibrated :=
  ⟨fun h => ⟨fun n hmode => ((h n).2 hmode).1, fun n => ⟨(h n).1, fun hmode => ((h n).2 hmode).2⟩⟩,
    fun h n => ⟨(h.2 n).1, fun hmode => ⟨h.1 n hmode, (h.2 n).2 hmode⟩⟩⟩

/-- Settles O12: the heads of lanes in service stay routed, since a write spares them, and their curves valid, since only
a valid bank is applied. -/
theorem lanesInServiceStayRoutedAndCalibrated : Obligations.LanesInServiceStayRoutedAndCalibrated := by
  intro s t h hstep
  obtain ⟨hrouted, hcalibrated⟩ := State.inServiceSound_iff.mp h
  exact State.inServiceSound_iff.mpr ⟨step_keeps headsRouted_stateOps hrouted hstep,
    step_every (calibrated_laneOps fun n => (s.headOf n).isSome = true) hcalibrated hstep⟩

end Sys2Proof.Machine
end

section
/-! SUPPORT. Depths and counters (chapters 1, 5, 8, 10 and 11): the unit's queues and counters under every part the
commands are made of, the lane counters, the entries of the urgent queue, and O6. -/

namespace Sys2Proof.Machine

/-! ### The unit's queues and counters (R16, R70, R138, R148, R177, R184) -/

/-- The depths of the queues and the counters of the unit and its ports, those of the lanes apart. -/
structure State.UnitBounded (s : State) : Prop where
  queues : s.QueuesBounded
  up : s.up.common.counters.Bounded
  dp : s.dp.common.counters.Bounded
  unanswered : s.unanswered ≤ 4294967295
  wrongPort : s.wrongPort ≤ 4294967295

theorem State.bounded_iff {s : State} :
    s.QueuesBounded ∧ s.CountersBounded ↔ s.UnitBounded ∧ s.Every fun _ l => l.counters.Bounded := by
  constructor
  · rintro ⟨hqueues, hup, hdp, hunanswered, hwrongPort, hlanes⟩
    exact ⟨⟨hqueues, hup, hdp, hunanswered, hwrongPort⟩, hlanes⟩
  · rintro ⟨⟨hqueues, hup, hdp, hunanswered, hwrongPort⟩, hlanes⟩
    exact ⟨hqueues, hup, hdp, hunanswered, hwrongPort, hlanes⟩

theorem PortCounters.bounded_zero : PortCounters.zero.Bounded :=
  ⟨Nat.zero_le _, Nat.zero_le _, Nat.zero_le _, Nat.zero_le _⟩

theorem PortCounters.Bounded.countFragment {c : PortCommon} (h : c.counters.Bounded) : c.countFragment.counters.Bounded := by
  obtain ⟨hcheck, hform, -, hdrops⟩ := h
  exact ⟨hcheck, hform, bump_le _, hdrops⟩

theorem PortCounters.Bounded.countForm {c : PortCommon} (h : c.counters.Bounded) : c.countForm.counters.Bounded := by
  obtain ⟨hcheck, -, hfragments, hdrops⟩ := h
  exact ⟨hcheck, bump_le _, hfragments, hdrops⟩

theorem PortCounters.Bounded.countCheck {c : PortCommon} (h : c.counters.Bounded) : c.countCheck.counters.Bounded := by
  obtain ⟨-, hform, hfragments, hdrops⟩ := h
  exact ⟨bump_le _, hform, hfragments, hdrops⟩

theorem PortCounters.Bounded.countDrop {c : PortCounters} (h : c.Bounded) :
    ({ c with forwardDrops := bump c.forwardDrops } : PortCounters).Bounded := by
  obtain ⟨hcheck, hform, hfragments, -⟩ := h
  exact ⟨hcheck, hform, hfragments, bump_le _⟩

theorem PortCounters.Bounded.takeBytes {c : PortCommon} (h : c.counters.Bounded) (data : List Byte) :
    (c.takeBytes data).counters.Bounded := by
  have takeByte : ∀ {c : PortCommon} (b : Byte), c.counters.Bounded → (c.takeByte b).counters.Bounded := by
    intro c b h
    unfold PortCommon.takeByte
    repeat' split
    · exact h
    · exact h
    · exact h.countForm
  induction data generalizing c with
  | nil => exact h
  | cons b rest ih => exact ih (takeByte b h)

namespace State.UnitBounded

variable {s : State}

theorem port (h : s.UnitBounded) (p : Port) : (s.port p).counters.Bounded := by
  cases p
  · exact h.up
  · exact h.dp

theorem putPort (h : s.UnitBounded) (p : Port) {c : PortCommon} (hc : c.counters.Bounded) :
    (s.putPort p c).UnitBounded := by
  cases p
  · exact ⟨h.queues, hc, h.dp, h.unanswered, h.wrongPort⟩
  · exact ⟨h.queues, h.up, hc, h.unanswered, h.wrongPort⟩

theorem raiseUnitNote (h : s.UnitBounded) : s.raiseUnitNote.UnitBounded :=
  ⟨h.queues, h.up, h.dp, h.unanswered, h.wrongPort⟩

theorem startDelimiter (h : s.UnitBounded) (p : Port) : (s.startDelimiter p).UnitBounded := by
  have hcounted : (if (s.port p).receiver = .hunt then s.port p else (s.port p).countFragment).counters.Bounded := by
    split
    · exact h.port p
    · exact (h.port p).countFragment
  unfold State.startDelimiter
  dsimp only
  split
  · exact h.putPort p hcounted
  · exact raiseUnitNote (h.putPort p (by exact hcounted))

theorem lineBreak (h : s.UnitBounded) (p : Port) : (s.lineBreak p).UnitBounded := by
  unfold State.lineBreak
  split
  · exact h
  · exact h.putPort p (h.port p).countFragment

theorem linkDown (h : s.UnitBounded) (p : Port) : (s.linkDown p).UnitBounded := by
  unfold State.linkDown
  split
  · exact raiseUnitNote (h.putPort p (by exact h.port p))
  · exact h

theorem lists (h : s.UnitBounded) (a b c d) :
    State.UnitBounded { s with toSwitch := a, toLanes := b, toResponder := c, pending := d } :=
  ⟨h.queues, h.up, h.dp, h.unanswered, h.wrongPort⟩

theorem endDelimiter (h : s.UnitBounded) (p : Port) : (s.endDelimiter p).UnitBounded := by
  unfold State.endDelimiter
  split
  · exact h
  · dsimp only
    split
    · exact lists (h.putPort p (by exact h.port p)) _ _ _ _
    · exact h.putPort p (h.port p).countForm
    · exact h.putPort p (h.port p).countCheck

/-- What leaves ports and counters alone and lengthens no queue. -/
theorem of_shorter {t : State} (h : s.UnitBounded) (hup : t.up.forward.length ≤ s.up.forward.length)
    (hdp : t.dp.forward.length ≤ s.dp.forward.length) (hreplies : t.up.replies.length ≤ s.up.replies.length)
    (hqueue : ∀ n, (t.queue n).length ≤ (s.queue n).length) (hcommon : t.up.common = s.up.common)
    (hcommon' : t.dp.common = s.dp.common) (hunanswered : t.unanswered = s.unanswered)
    (hwrongPort : t.wrongPort = s.wrongPort) : t.UnitBounded where
  queues := by
    obtain ⟨hup8, hdp8, hreplies4, hqueue4⟩ := h.queues
    exact ⟨hup.trans hup8, hdp.trans hdp8, hreplies.trans hreplies4, fun n => (hqueue n).trans (hqueue4 n)⟩
  up := hcommon ▸ h.up
  dp := hcommon' ▸ h.dp
  unanswered := hunanswered ▸ h.unanswered
  wrongPort := hwrongPort ▸ h.wrongPort

theorem only {t : State} (h : s.UnitBounded) (ho : s.OnlyLanes (fun _ => True) t) : t.UnitBounded := by
  refine h.of_shorter ?_ ?_ ?_ ho.length ?_ ?_ ho.unanswered ho.wrongPort
  · rw [ho.up]
  · rw [ho.dp]
  · rw [ho.up]
  · rw [ho.up]
  · rw [ho.dp]

theorem forwardUp (h : s.UnitBounded) (f : Frame) : (s.forwardUp f).UnitBounded := by
  have hqueues := h.queues
  obtain ⟨⟨-, hdp8, hreplies4, hqueue4⟩, hup, hdp, hunanswered, hwrongPort⟩ := h
  unfold State.forwardUp
  split
  · rename_i hroom
    exact ⟨⟨by simpa using hroom, hdp8, hreplies4, hqueue4⟩, hup, hdp, hunanswered, hwrongPort⟩
  · exact ⟨hqueues, hup.countDrop, hdp, hunanswered, hwrongPort⟩

theorem forwardDown (h : s.UnitBounded) (f : Frame) : (s.forwardDown f).UnitBounded := by
  have hqueues := h.queues
  obtain ⟨⟨hup8, -, hreplies4, hqueue4⟩, hup, hdp, hunanswered, hwrongPort⟩ := h
  unfold State.forwardDown
  split
  · rename_i hroom
    exact ⟨⟨hup8, by simpa using hroom, hreplies4, hqueue4⟩, hup, hdp, hunanswered, hwrongPort⟩
  · exact ⟨hqueues, hup, hdp.countDrop, hunanswered, hwrongPort⟩

theorem selectDp (h : s.UnitBounded) : s.selectDp.UnitBounded := by
  rcases s.selectDp_cases with e | ⟨_, -, -, e⟩ | ⟨_, _, -, -, e⟩ | ⟨f, rest, -, hf, e⟩ <;> rw [e]
  · exact h
  · exact h.of_shorter le_rfl le_rfl le_rfl (fun _ => le_rfl) rfl rfl rfl rfl
  · exact h.of_shorter le_rfl le_rfl le_rfl (fun _ => le_rfl) rfl rfl rfl rfl
  · exact h.of_shorter le_rfl (by simp [hf]) le_rfl (fun _ => le_rfl) rfl rfl rfl rfl

theorem selectUp (h : s.UnitBounded) : s.selectUp.UnitBounded := by
  rcases s.selectUp_cases with e | ⟨r, rest, -, hr, e⟩ | ⟨x, -, -, -, -, e⟩ | ⟨f, rest, -, hf, e⟩ <;> rw [e]
  · exact h
  · exact h.of_shorter le_rfl le_rfl (by simp [hr]) (fun _ => le_rfl) rfl rfl rfl rfl
  · cases x <;> exact h.of_shorter le_rfl le_rfl le_rfl (fun _ => le_rfl) rfl rfl rfl rfl
  · exact h.of_shorter (by simp [hf]) le_rfl le_rfl (fun _ => le_rfl) rfl rfl rfl rfl

/-- A unit whose queues are empty and whose counters are 0. -/
theorem of_empty (hup : s.up.forward = []) (hdp : s.dp.forward = []) (hreplies : s.up.replies.length ≤ 4)
    (hqueue : ∀ n, s.queue n = []) (hcounters : s.up.common.counters = PortCounters.zero)
    (hcounters' : s.dp.common.counters = PortCounters.zero) (hunanswered : s.unanswered = 0)
    (hwrongPort : s.wrongPort = 0) : s.UnitBounded where
  queues := ⟨by simp [hup], by simp [hdp], hreplies, fun n => by simp [hqueue n]⟩
  up := hcounters ▸ PortCounters.bounded_zero
  dp := hcounters' ▸ PortCounters.bounded_zero
  unanswered := by simp [hunanswered]
  wrongPort := by simp [hwrongPort]

end State.UnitBounded

theorem unitBounded_storeOps : StoreOps State.UnitBounded where
  only _ _ ho h := h.only ho
  clock _ _ h := h.of_shorter le_rfl le_rfl le_rfl (fun _ => le_rfl) rfl rfl rfl rfl
  lists _ _ _ _ _ h := h.lists _ _ _ _
  power _ _ := .of_empty rfl rfl (Nat.zero_le _) (fun n => by cases n <;> rfl) rfl rfl rfl rfl
  pin _ h := h.of_shorter le_rfl le_rfl le_rfl (fun _ => le_rfl) rfl rfl rfl rfl
  startDelimiter _ p h := h.startDelimiter p
  bytes _ p data h := h.putPort p ((h.port p).takeBytes data)
  lineBreak _ p h := h.lineBreak p
  linkDown _ p h := h.linkDown p
  endDelimiter _ p h := h.endDelimiter p
  forwardUp _ f h := h.forwardUp f
  forwardDown _ f h := h.forwardDown f
  wrongPort _ h := ⟨h.queues, h.up, h.dp, h.unanswered, bump_le _⟩
  discard _ h := ⟨h.queues, h.up, h.dp, bump_le _, h.wrongPort⟩
  controller _ _ h := h.of_shorter le_rfl le_rfl le_rfl (fun _ => le_rfl) rfl rfl rfl rfl
  reply _ _ _ hroom h := by
    obtain ⟨hup8, hdp8, -, hqueue4⟩ := h.queues
    exact ⟨⟨hup8, hdp8, by simpa using hroom, hqueue4⟩, h.up, h.dp, h.unanswered, h.wrongPort⟩
  restarted _ _ := .of_empty rfl rfl (Nat.zero_le _) (fun n => by cases n <;> rfl) rfl rfl rfl rfl
  restartReply _ _ _ _ := .of_empty rfl rfl (by decide : 1 ≤ 4) (fun n => by cases n <;> rfl) rfl rfl rfl rfl
  selectDp _ h := h.selectDp
  selectUp _ h := h.selectUp
  endUp _ h := h.of_shorter le_rfl le_rfl le_rfl (fun _ => le_rfl) rfl rfl rfl rfl
  sent _ h := h.of_shorter le_rfl le_rfl le_rfl (fun _ => le_rfl) rfl rfl rfl rfl
  route _ _ _ _ _ _ _ h := h.of_shorter le_rfl le_rfl le_rfl (fun _ => le_rfl) rfl rfl rfl rfl
  post s n o hroom h := by
    obtain ⟨hup8, hdp8, hreplies4, hqueue4⟩ := h.queues
    refine ⟨⟨hup8, hdp8, hreplies4, fun m => ?_⟩, h.up, h.dp, h.unanswered, h.wrongPort⟩
    by_cases hm : m = n
    · subst hm
      simpa using hroom
    · rw [State.putQueue_queue_of_ne s _ hm]
      exact hqueue4 m
  zeroPorts _ h := ⟨h.queues, PortCounters.bounded_zero, PortCounters.bounded_zero, h.unanswered, h.wrongPort⟩
  zeroUnit _ h := ⟨h.queues, h.up, h.dp, Nat.zero_le _, Nat.zero_le _⟩
  accept _ _ _ h := h.of_shorter le_rfl le_rfl le_rfl (fun _ => le_rfl) rfl rfl rfl rfl

/-! ### The lane counters (R16, R162) -/

theorem LaneCounters.bounded_zero : LaneCounters.zero.Bounded :=
  ⟨Nat.zero_le _, Nat.zero_le _, Nat.zero_le _, Nat.zero_le _, Nat.zero_le _, Nat.zero_le _⟩

theorem laneCounters_laneOps (routed : LaneId → Prop) : LaneOps routed fun _ l => l.counters.Bounded where
  counters _ _ _ hc h := hc h
  condition _ l m _ _ _ h := by
    obtain ⟨-, hduplicates, hgaps, hspikes, hrest⟩ := h
    refine ⟨bump_le _, hduplicates, hgaps, ?_, hrest⟩
    unfold Lane.condition
    dsimp only
    split
    · exact hspikes
    · exact bump_le _
  restarted _ _ _ _ := LaneCounters.bounded_zero
  powerOn _ := LaneCounters.bounded_zero
  learn _ l b r h := by
    unfold Lane.learn
    split <;> exact h
  reconcile _ l e kg h := by
    unfold Lane.reconcile
    dsimp only
    split <;> exact h
  stage2 _ l r h := by
    unfold Lane.stage2
    split
    · dsimp only
      split <;> exact h
    · exact h
  seq _ _ _ h e _ := by rw [e]; exact h
  mode _ _ _ _ h := h
  marks _ _ _ _ h := h
  recon _ _ _ h := h
  report _ _ _ _ h := h
  stage3 _ _ _ h := h
  stage4 _ _ _ _ h := h
  apply _ _ _ h := h
  calibrate _ _ h := h
  enterService _ _ h := h
  noFlow _ _ h := h
  overrange _ _ _ h := h
  silenced _ _ h := h
  fill _ _ h := h
  total _ _ h := h
  param _ _ _ _ _ _ h := h
  slot _ _ _ _ _ _ _ _ _ _ _ h := h
  commit _ _ _ h := h

/-! ### The urgent queue (R142) -/

/-- Marking an entry as in transmission changes no lane and no kind. -/
theorem markFirst_keys (q : List UrgentEntry) :
    ((markFirst q).map fun e => (e.lane, e.kind)) = q.map fun e => (e.lane, e.kind) := by
  induction q with
  | nil => rfl
  | cons e rest ih =>
    unfold markFirst
    split
    · rw [List.map_cons, List.map_cons, ih]
    · rfl

theorem State.UrgentDistinct.congr {s t : State} (h : s.UrgentDistinct) (hurgent : t.dp.urgent = s.dp.urgent) :
    t.UrgentDistinct := by
  unfold State.UrgentDistinct
  rw [hurgent]
  exact h

theorem State.UrgentDistinct.selectDp {s : State} (h : s.UrgentDistinct) : s.selectDp.UrgentDistinct := by
  rcases s.selectDp_cases with e | ⟨_, -, -, e⟩ | ⟨_, _, -, -, e⟩ | ⟨_, _, -, -, e⟩ <;> rw [e]
  · exact h
  · exact (congrArg List.Nodup (markFirst_keys s.dp.urgent)).mpr h
  · exact h
  · exact h

theorem urgentDistinct_storeOps : StoreOps State.UrgentDistinct where
  only _ _ ho h := ho.distinct h
  clock _ _ h := h
  lists _ _ _ _ _ h := h
  power _ _ := List.nodup_nil
  pin _ h := h
  startDelimiter _ _ h := h.congr (State.startDelimiter_dp_urgent ..)
  bytes _ _ _ h := h.congr (State.putPort_dp_urgent ..)
  lineBreak _ _ h := h.congr (State.lineBreak_dp_urgent ..)
  linkDown _ _ h := h.congr (State.linkDown_dp_urgent ..)
  endDelimiter _ _ h := h.congr (State.endDelimiter_dp_urgent ..)
  forwardUp _ _ h := h.congr (congrArg DpPort.urgent (State.forwardUp_dp ..))
  forwardDown _ _ h := h.congr (State.forwardDown_dp_urgent ..)
  wrongPort _ h := h
  discard _ h := h
  controller _ _ h := h
  reply _ _ _ _ h := h
  restarted _ _ := List.nodup_nil
  restartReply _ _ _ _ := List.nodup_nil
  selectDp _ h := h.selectDp
  selectUp _ h := h.congr (congrArg DpPort.urgent (State.selectUp_dp ..))
  endUp _ h := h
  sent _ h := h.sublist (List.Sublist.map _ List.filter_sublist)
  route _ _ _ _ _ _ _ h := h
  post _ _ _ _ h := h
  zeroPorts _ h := h
  zeroUnit _ h := h
  accept _ _ _ h := h

/-- Entries that are distinct are at most as many as there are lanes and kinds. -/
theorem State.UrgentDistinct.length_le {s : State} (h : s.UrgentDistinct) : s.dp.urgent.length ≤ 8 := by
  have hsub : (s.dp.urgent.map fun e => (e.lane, e.kind)) ⊆
      allLanes.flatMap fun n => [(n, UrgentKind.headClose), (n, UrgentKind.isolationClose)] := by
    rintro ⟨n, k⟩ -
    cases n <;> cases k <;> decide
  have hle := (List.subperm_of_subset h hsub).length_le
  rwa [List.length_map] at hle

/-- Settles O6: depths and counters by the unit's parts and the lanes' own counters; the urgent queue by its entries. -/
theorem queueDepthsCountersAndUrgentEntriesKept : Obligations.QueueDepthsCountersAndUrgentEntriesKept := by
  refine ⟨fun s t h hstep => ?bounds, fun s t h hstep => ?urgent⟩
  case bounds =>
    obtain ⟨hunit, hlanes⟩ := State.bounded_iff.mp h
    exact State.bounded_iff.mpr ⟨step_keeps unitBounded_storeOps.toStateOps hunit hstep,
      step_every (laneCounters_laneOps fun n => (s.headOf n).isSome = true) hlanes hstep⟩
  case urgent =>
    have hdistinct := step_keeps urgentDistinct_storeOps.toStateOps h hstep
    exact ⟨hdistinct, hdistinct.length_le⟩

end Sys2Proof.Machine
end

section
/-! SUPPORT. The quiet of a transparent unit (R147) and of a draining one (R116, R141), and O15. -/

namespace Sys2Proof.Machine

/-! ### Transparent mode -/

/-- What holds of a unit in transparent mode (R147). -/
structure State.Quiet (s : State) : Prop where
  mode : ∀ n, (s.lane n).seq.mode = .outOfService
  slot : ∀ n, s.dp.slots.get n = none
  controller : s.controller = 0
  restart : s.restart = none
  urgent : s.dp.urgent = []
  replies : s.up.replies = []

theorem State.transparentQuiet_iff {s : State} : s.TransparentQuiet ↔ (s.transparent = true → s.Quiet) :=
  forall_congr' fun _ =>
    ⟨fun ⟨hlanes, hcontroller, hrestart, hurgent, hreplies⟩ =>
        ⟨fun n => (hlanes n).1, fun n => (hlanes n).2, hcontroller, hrestart, hurgent, hreplies⟩,
      fun h => ⟨fun n => ⟨h.mode n, h.slot n⟩, h.controller, h.restart, h.urgent, h.replies⟩⟩

/-- A change that leaves the straps and keeps a quiet unit quiet. -/
theorem State.TransparentQuiet.mono {s t : State} (h : s.TransparentQuiet) (hstraps : t.straps = s.straps)
    (hquiet : s.Quiet → t.Quiet) : t.TransparentQuiet :=
  State.transparentQuiet_iff.mpr fun ht =>
    hquiet (State.transparentQuiet_iff.mp h ((transparent_congr hstraps).symm.trans ht))

/-- Outside transparent mode there is nothing to keep. -/
theorem State.transparentQuiet_of_not {s t : State} (hs : s.transparent = false) (hstraps : t.straps = s.straps) :
    t.TransparentQuiet :=
  fun ht => nomatch ht.symm.trans ((transparent_congr hstraps).trans hs)

namespace State.Quiet

variable {s t : State}

theorem congr (h : s.Quiet) (hmode : ∀ n, (t.lane n).seq.mode = (s.lane n).seq.mode) (hslots : t.dp.slots = s.dp.slots)
    (hcontroller : t.controller = s.controller) (hrestart : t.restart = s.restart)
    (hurgent : t.dp.urgent = s.dp.urgent) (hreplies : t.up.replies = s.up.replies) : t.Quiet where
  mode n := (hmode n).trans (h.mode n)
  slot n := hslots ▸ h.slot n
  controller := hcontroller.trans h.controller
  restart := hrestart.trans h.restart
  urgent := hurgent.trans h.urgent
  replies := hreplies.trans h.replies

theorem powerOn (straps : BitVec 7) (q : List Instr) : (State.powerOn straps q).Quiet :=
  ⟨fun n => by cases n <;> rfl, fun n => by cases n <;> rfl, rfl, rfl, rfl, rfl⟩

/-- A lane engine changed in its mode's place. -/
theorem onLane (h : s.Quiet) (n : LaneId) {f : Lane → Lane} (hf : ∀ l, (f l).seq.mode = l.seq.mode) :
    (s.onLane n f).Quiet := by
  refine h.congr (fun m => ?_) rfl rfl rfl rfl rfl
  by_cases hm : m = n
  · subst hm
    rw [State.onLane_lane_self]
    exact hf _
  · rw [State.onLane_lane_of_ne s f hm]

theorem atExpiry (h : s.Quiet) (timer : Timer) : (s.atExpiry timer).Quiet := by
  rw [State.atExpiry_eq]
  exact h.congr (fun _ => rfl) rfl rfl rfl rfl rfl

theorem raiseNote (h : s.Quiet) (n : LaneId) : (s.raiseNote n).Quiet := h.congr (fun _ => rfl) rfl rfl rfl rfl rfl

theorem not_auto (h : s.Quiet) (n : LaneId) : ((s.lane n).seq.mode == .auto) = false := by
  rw [h.mode n]
  rfl

theorem not_pouring (h : s.Quiet) (n : LaneId) : (s.lane n).pouring = false := by
  unfold Lane.pouring
  rw [h.not_auto n, Bool.false_and]

/-! A timer that expires on a lane out of service stops, and nothing follows. -/

theorem silenceExpiry (h : s.Quiet) (n : LaneId) : (s.silenceExpiry n).Quiet := by
  unfold State.silenceExpiry
  split
  · rename_i timer _
    have hsilenced := ((h.atExpiry timer).onLane n (f := Lane.silenced) fun _ => rfl).raiseNote n
    unfold State.silenceReaction
    rw [hsilenced.mode n]
    exact hsilenced
  · exact h

theorem openExpiry (h : s.Quiet) (n : LaneId) : (s.openExpiry n).Quiet := by
  unfold State.openExpiry
  split
  · rename_i timer _
    have hstopped := (h.atExpiry timer).onLane n (f := fun l => l.onSeq fun q => { q with openTimer := none }) fun _ => rfl
    dsimp only
    rw [if_neg (by rw [hstopped.not_pouring n]; exact nofun)]
    exact hstopped
  · exact h

theorem closeExpiry (h : s.Quiet) (n : LaneId) : (s.closeExpiry n).Quiet := by
  unfold State.closeExpiry
  split
  · rename_i timer _
    have hstopped := (h.atExpiry timer).onLane n (f := fun l => l.onSeq fun q => { q with closeTimer := none }) fun _ => rfl
    dsimp only
    rw [if_neg (by rw [hstopped.not_auto n]; exact nofun)]
    exact hstopped
  · exact h

theorem fallExpiry (h : s.Quiet) (n : LaneId) : (s.fallExpiry n).Quiet := by
  unfold State.fallExpiry
  split
  · exact (h.atExpiry _).onLane n fun _ => rfl
  · exact h

theorem settleExpiry (h : s.Quiet) (n : LaneId) : (s.settleExpiry n).Quiet := by
  unfold State.settleExpiry
  split
  · rename_i timer _
    have hstopped := (h.atExpiry timer).onLane n (f := fun l => l.onSeq fun q => { q with settleTimer := none }) fun _ => rfl
    dsimp only
    rw [if_neg (by rw [hstopped.not_auto n]; exact nofun)]
    exact hstopped
  · exact h

theorem gangExpiry (h : s.Quiet) (n : LaneId) : (s.gangExpiry n).Quiet := by
  unfold State.gangExpiry
  split
  · rename_i timer _
    have hstopped := (h.atExpiry timer).onLane n (f := fun l => l.onSeq fun q => { q with gangTimer := none }) fun _ => rfl
    dsimp only
    rw [if_neg (by rw [hstopped.not_auto n]; exact nofun)]
    exact hstopped
  · exact h

/-- No restart waits for its bound. -/
theorem boundExpiry (h : s.Quiet) : s.boundExpiry.Quiet := by
  unfold State.boundExpiry
  rw [h.restart]
  exact h

theorem selectDp (h : s.Quiet) : s.selectDp.Quiet := by
  rcases s.selectDp_cases with e | ⟨_, -, -, e⟩ | ⟨n, _, -, -, e⟩ | ⟨_, _, -, -, e⟩ <;> rw [e]
  · exact h
  · exact h.congr (fun _ => rfl) rfl rfl rfl (by simp [h.urgent, markFirst]) rfl
  · refine ⟨h.mode, fun m => ?_, h.controller, h.restart, h.urgent, h.replies⟩
    rw [PerLane.get_set]
    split
    · rfl
    · exact h.slot m
  · exact h.congr (fun _ => rfl) rfl rfl rfl rfl rfl

theorem selectUp (h : s.Quiet) : s.selectUp.Quiet := by
  rcases s.selectUp_cases with e | ⟨_, _, -, hreplies, -⟩ | ⟨x, -, -, -, -, e⟩ | ⟨_, _, -, -, e⟩
  · rw [e]
    exact h
  · exact nomatch h.replies.symm.trans hreplies
  · rw [e]
    cases x
    · exact (h.onLane _ (f := fun l => { l with screenedMark := false }) fun _ => rfl).congr (fun _ => rfl) rfl rfl rfl rfl rfl
    · exact h.congr (fun _ => rfl) rfl rfl rfl rfl rfl
  · rw [e]
    exact h.congr (fun _ => rfl) rfl rfl rfl rfl rfl

theorem transmitEndDp (h : s.Quiet) : s.transmitEndDp.Quiet := by
  rcases s.transmitEndDp_cases with ⟨-, e⟩ | ⟨_, -, e⟩ | ⟨_, _, -, hrestart, -, -, -⟩
  · rw [e]
    exact h
  · rw [e]
    exact h.congr (fun _ => rfl) rfl rfl rfl (by simp [h.urgent]) rfl
  · exact nomatch h.restart.symm.trans hrestart

end State.Quiet

theorem State.boundExpiry_straps (s : State) : s.boundExpiry.straps = s.straps := by
  unfold State.boundExpiry
  split
  · exact State.atExpiry_straps s _
  · rfl

theorem State.transmitEndDp_straps (s : State) : s.transmitEndDp.straps = s.straps := by
  rcases s.transmitEndDp_cases with ⟨-, h⟩ | ⟨_, -, h⟩ | ⟨_, _, -, -, -, -, h⟩
  · rw [h]
  · rw [h]
  · rw [h]
    rfl

/-- A unit in transparent mode: a command acts on the line, the queues and the timers only, and none of these starts
anything in a lane out of service. -/
theorem transparentQuiet_stateOps : StateOps State.TransparentQuiet where
  power straps q := State.transparentQuiet_iff.mpr fun _ => .powerOn straps q
  pin _ h := h
  startDelimiter s p h := h.mono (by simp) fun hq => hq.congr (by simp) (by simp) (by simp) (by simp) (by simp) (by simp)
  bytes s p _ h := h.mono (by simp) fun hq => hq.congr (by simp) (by simp) (by simp) (by simp) (by simp) (by simp)
  lineBreak s p h := h.mono (by simp) fun hq => hq.congr (by simp) (by simp) (by simp) (by simp) (by simp) (by simp)
  linkDown s p h := h.mono (by simp) fun hq => hq.congr (by simp) (by simp) (by simp) (by simp) (by simp) (by simp)
  endDelimiter s p h := h.mono (by simp) fun hq => hq.congr (by simp) (by simp) (by simp) (by simp) (by simp) (by simp)
  toSwitch _ _ h := h
  toLanes _ _ h := h
  toResponder _ _ h := h
  pending _ _ h := h
  clock _ _ h := h
  forwardUp s f h := h.mono (by simp) fun hq => hq.congr (by simp) (by simp) (by simp) (by simp) (by simp) (by simp)
  forwardDown s f h := h.mono (by simp) fun hq => hq.congr (by simp) (by simp) (by simp) (by simp) (by simp) (by simp)
  wrongPort _ h := h
  formError _ _ ht _ := State.transparentQuiet_of_not ht rfl
  block _ _ ht _ _ := State.transparentQuiet_of_not ht rfl
  cutOff s n c ht _ _ := State.transparentQuiet_of_not ht (s.onlyLanes_cutOff (P := fun _ => True) trivial c).straps
  takeSample s n m ht _ :=
    State.transparentQuiet_of_not ht (s.onlyLanes_takeSample (P := fun _ => True) trivial (fun _ _ => trivial) m).straps
  resume _ _ ht _ := State.transparentQuiet_of_not ht rfl
  silenceExpiry s n h := h.mono (s.silenceExpiry_lanesAndClock n).straps fun hq => hq.silenceExpiry n
  openExpiry s n h := h.mono (s.openExpiry_lanesAndClock n).straps fun hq => hq.openExpiry n
  closeExpiry s n h := h.mono (s.closeExpiry_lanesAndClock n).straps fun hq => hq.closeExpiry n
  fallExpiry s n h := h.mono (s.fallExpiry_lanesAndClock n).straps fun hq => hq.fallExpiry n
  settleExpiry s n h := h.mono (s.settleExpiry_lanesAndClock n).straps fun hq => hq.settleExpiry n
  gangExpiry s n h := h.mono (s.gangExpiry_lanesAndClock n).straps fun hq => hq.gangExpiry n
  boundExpiry s h := h.mono (State.boundExpiry_straps ..) fun hq => hq.boundExpiry
  selectDp s h := h.mono (by simp) fun hq => hq.selectDp
  selectUp s h := h.mono (by simp) fun hq => hq.selectUp
  endUp _ h := h
  endDp s h := h.mono (State.transmitEndDp_straps ..) fun hq => hq.transmitEndDp
  discard _ ht _ := State.transparentQuiet_of_not ht rfl
  controller _ _ ht _ := State.transparentQuiet_of_not ht rfl
  decided _ _ ht hd _ := State.transparentQuiet_of_not ht hd.straps_replies.1
  reply _ _ _ ht _ _ := State.transparentQuiet_of_not ht rfl

/-! ### The drain of a forced restart -/

theorem State.DrainWithoutPositions.congr {s t : State} (h : s.DrainWithoutPositions) (hrestart : t.restart = s.restart)
    (hslots : t.dp.slots = s.dp.slots) : t.DrainWithoutPositions := fun hdrain n => by
  rw [hslots]
  exact h (hrestart ▸ hdrain) n

/-- A selection takes a command out of a slot and places none. -/
theorem State.DrainWithoutPositions.selectDp {s : State} (h : s.DrainWithoutPositions) :
    s.selectDp.DrainWithoutPositions := by
  rcases s.selectDp_cases with e | ⟨_, -, -, e⟩ | ⟨_, _, -, -, e⟩ | ⟨_, _, -, -, e⟩ <;> rw [e]
  · exact h
  · exact h
  · intro hdrain m
    rw [PerLane.get_set]
    split
    · rfl
    · exact h hdrain m
  · exact h

theorem drainWithoutPositions_storeOps : StoreOps State.DrainWithoutPositions where
  only _ _ ho h := ho.drain h
  clock _ _ h := h
  lists _ _ _ _ _ h := h
  power _ _ := nofun
  pin _ h := h
  startDelimiter _ _ h := h.congr (by simp) (by simp)
  bytes _ _ _ h := h.congr (by simp) (by simp)
  lineBreak _ _ h := h.congr (by simp) (by simp)
  linkDown _ _ h := h.congr (by simp) (by simp)
  endDelimiter _ _ h := h.congr (by simp) (by simp)
  forwardUp _ _ h := h.congr (by simp) (by simp)
  forwardDown _ _ h := h.congr (by simp) (by simp)
  wrongPort _ h := h
  discard _ h := h
  controller _ _ h := h
  reply _ _ _ _ h := h
  restarted _ _ := nofun
  restartReply _ _ _ _ := nofun
  selectDp _ h := h.selectDp
  selectUp _ h := h.congr (by simp) (by simp)
  endUp _ h := h
  sent _ h := h
  route _ _ _ _ _ _ _ h := h
  post _ _ _ _ h := h
  zeroPorts _ h := h
  zeroUnit _ h := h
  accept _ _ _ _ := fun _ n => by cases n <;> rfl

/-- Settles O15: what acts in transparent mode keeps the unit quiet; positions are placed by lane operations only, which
omit them while a restart drains. -/
theorem transparentAndDrainingUnitsStayQuiet : Obligations.TransparentAndDrainingUnitsStayQuiet :=
  ⟨fun _ _ h hstep => step_keeps transparentQuiet_stateOps h hstep,
    fun _ _ h hstep => step_keeps drainWithoutPositions_storeOps.toStateOps h hstep⟩

end Sys2Proof.Machine
end

section
/-! SUPPORT. The causes of a lane (R93, R97, R110, R111): what each act of the lane cycle leaves of hold cause, fault cause
and state, and O14. -/

namespace Sys2Proof.Machine

/-! ### The causes of one lane -/

theorem Lane.causesMatch_of_clear {l : Lane} (hhold : l.seq.holdCause = .none) (hfault : l.seq.faultCause = .none)
    (hstate : l.seq.state ≠ .fault) : l.CausesMatch :=
  ⟨fun h => absurd hhold h, fun h => absurd hfault h, fun h => absurd h hstate⟩

theorem Lane.causesMatch_of_held {l : Lane} (hstate : l.seq.state = .armed ∨ l.seq.state = .indexing)
    (hfault : l.seq.faultCause = .none) : l.CausesMatch :=
  ⟨fun _ => hstate, fun h => absurd hfault h, fun h => by rcases hstate with e | e <;> rw [e] at h <;> cases h⟩

theorem Lane.causesMatch_of_faulted {l : Lane} (hstate : l.seq.state = .fault) (hhold : l.seq.holdCause = .none)
    (hfault : l.seq.faultCause ≠ .none) : l.CausesMatch :=
  ⟨fun h => absurd hhold h, fun _ => hstate, fun _ => hfault⟩

theorem Lane.CausesMatch.fault_none {l : Lane} (h : l.CausesMatch) (hstate : l.seq.state ≠ .fault) :
    l.seq.faultCause = .none :=
  not_not.mp fun hfault => hstate (h.2.mp hfault)

theorem Lane.CausesMatch.hold_none {l : Lane} (h : l.CausesMatch) (harmed : l.seq.state ≠ .armed)
    (hindexing : l.seq.state ≠ .indexing) : l.seq.holdCause = .none :=
  not_not.mp fun hhold => (h.1 hhold).elim harmed hindexing

theorem Lane.CausesMatch.congr {l l' : Lane} (h : l.CausesMatch) (hseq : l'.seq = l.seq) : l'.CausesMatch := by
  unfold Lane.CausesMatch
  rw [hseq]
  exact h

/-! ### The causes of every lane -/

/-- The causes of every lane are those of its state. -/
abbrev State.CausesHold (s : State) : Prop := s.Every fun _ l => l.CausesMatch

theorem Lane.opening_state (l : Lane) (o : Order) (kg : Nat) :
    (l.opening o kg).2 = .filling ∨ (l.opening o kg).2 = .trickle := by
  unfold Lane.opening
  split_ifs
  · exact .inr rfl
  · exact .inl rfl
  · exact .inl rfl

@[simp] theorem State.reserve_lane (s : State) (n m : LaneId) : (s.reserve n).lane m = s.lane m := by
  unfold State.reserve
  rw [State.onHead_lane]
  rfl

theorem Lane.learn_seq (l : Lane) (cancelNoted : Bool) (r : CompResult) : (l.learn cancelNoted r).1.seq = l.seq := by
  unfold Lane.learn
  split <;> rfl

theorem Lane.stage2_seq (l : Lane) (r : SampleRecord) : (l.stage2 r).1.seq = l.seq := by
  unfold Lane.stage2
  split
  · dsimp only
    split <;> rfl
  · rfl

/-- Stage 1 leaves the state and both causes. -/
theorem Lane.CausesMatch.stage1 {l : Lane} (h : l.CausesMatch) (m : Meas) : (l.stage1 m).1.CausesMatch := by
  unfold Lane.stage1
  split
  · exact h
  · dsimp only
    split_ifs <;> exact h

/-- An entry to FILLING puts no lane in FAULT. -/
theorem State.enterFilling_state_ne_fault {s : State} {m : LaneId} (h : (s.lane m).seq.state ≠ .fault) (n : LaneId)
    (k : Nat) : ((s.enterFilling n k).lane m).seq.state ≠ .fault := by
  by_cases hm : m = n
  · subst hm
    cases ha : s.activeOrder m with
    | none =>
      unfold State.enterFilling
      rw [ha]
      exact h
    | some o =>
      rw [(State.enterFilling_of_active k ha).1]
      rcases (s.lane m).opening_state o (o.targets.getD (k - 1) 0) with e | e <;>
        exact fun hf => nomatch e.symm.trans hf
  · rw [(s.onlyLanes_enterFilling (P := (· = n)) rfl k).lane m hm]
    exact h

namespace State.CausesHold

variable {s t : State}

/-- An act on lane `n` alone, where the lane's causes are those of the state it ends in. -/
theorem of_only {n : LaneId} (h : s.CausesHold) (ho : s.OnlyLanes (· = n) t) (hn : (t.lane n).CausesMatch) :
    t.CausesHold := fun m => by
  by_cases hm : m = n
  · exact hm ▸ hn
  · exact (ho.lane m hm).symm ▸ h m

theorem of_seq (h : s.CausesHold) (hseq : ∀ m, (t.lane m).seq = (s.lane m).seq) : t.CausesHold := fun m =>
  (h m).congr (hseq m)

/-- An act on lane `n`'s sequencer that leaves its state and its causes. -/
theorem onSeq (h : s.CausesHold) (n : LaneId) (f : Sequencer → Sequencer) (hstate : ∀ q, (f q).state = q.state := by intros; rfl)
    (hhold : ∀ q, (f q).holdCause = q.holdCause := by intros; rfl)
    (hfault : ∀ q, (f q).faultCause = q.faultCause := by intros; rfl) : (s.onLane n fun l => l.onSeq f).CausesHold :=
  State.Every.onLane (f := fun l => l.onSeq f) h fun l hl => by
    unfold Lane.CausesMatch Lane.onSeq
    dsimp only
    rw [hstate, hhold, hfault]
    exact hl

theorem enterFilling (h : s.CausesHold) {n : LaneId} (hstate : (s.lane n).seq.state ≠ .fault) (k : Nat) :
    (s.enterFilling n k).CausesHold := by
  refine h.of_only (s.onlyLanes_enterFilling (P := (· = n)) rfl k) ?_
  cases ha : s.activeOrder n with
  | none =>
    unfold State.enterFilling
    rw [ha]
    exact h n
  | some o =>
    have hlane := (State.enterFilling_of_active k ha).1
    refine Lane.causesMatch_of_clear ?_ ?_ (State.enterFilling_state_ne_fault hstate n k)
    · rw [hlane]
      rfl
    · rw [hlane]
      exact (h n).fault_none hstate

theorem releaseGang (members : List LaneId) (h : s.CausesHold) (hstate : ∀ n ∈ members, (s.lane n).seq.state ≠ .fault) :
    (s.releaseGang members).CausesHold := by
  unfold State.releaseGang
  induction members generalizing s with
  | nil => exact h
  | cons n rest ih =>
    have hn := hstate n List.mem_cons_self
    exact ih (h.enterFilling hn 1) fun m hm =>
      State.enterFilling_state_ne_fault (hstate m (List.mem_cons_of_mem n hm)) n 1

theorem enterGangWait (h : s.CausesHold) {n : LaneId} (hhold : (s.lane n).seq.holdCause = .none)
    (hstate : (s.lane n).seq.state ≠ .fault) (o : Order) : (s.enterGangWait n o).CausesHold := by
  unfold State.enterGangWait
  extract_lets timer waits members
  have hwaits : waits.CausesHold := by
    refine h.of_only ((s.onlyLanes_onLane (P := (· = n)) rfl _).trans (State.onlyLanes_enterState _ (P := (· = n)) rfl _)) ?_
    refine Lane.causesMatch_of_clear ?_ ?_ ?_
    · simpa [waits, Lane.onSeq] using hhold
    · simpa [waits, Lane.onSeq] using (h n).fault_none hstate
    · simp [waits, Lane.onSeq]
  split
  · exact hwaits.releaseGang members fun m hm hfault => nomatch (State.mem_waitingSet.mp hm).2.1.symm.trans hfault
  · exact hwaits

theorem setHold (h : s.CausesHold) {n : LaneId} (hstate : (s.lane n).seq.state = .armed ∨ (s.lane n).seq.state = .indexing)
    (c : HoldCause) : (s.setHold n c).CausesHold := by
  refine h.of_only (s.onlyLanes_setHold (P := (· = n)) rfl c) ?_
  have hne : (s.lane n).seq.state ≠ .fault := by rcases hstate with e | e <;> rw [e] <;> exact nofun
  refine Lane.causesMatch_of_held ?_ ?_
  · simpa [State.setHold, Lane.onSeq] using hstate
  · simpa [State.setHold, Lane.onSeq] using (h n).fault_none hne

theorem dropOut (h : s.CausesHold) {n : LaneId} (hstate : (s.lane n).seq.state ≠ .fault) (c : HoldCause) :
    (s.dropOut n c).CausesHold := by
  refine h.of_only (s.onlyLanes_dropOut (P := (· = n)) rfl c) (Lane.causesMatch_of_held (.inl ?_) ?_)
  · simp [State.dropOut, Lane.onSeq]
  · simpa [State.dropOut, Lane.onSeq] using (h n).fault_none hstate

theorem testArmed (h : s.CausesHold) {n : LaneId} (hstate : (s.lane n).seq.state = .armed) : (s.testArmed n).CausesHold := by
  have hhold := h.setHold (.inl hstate)
  have hreserved : ((s.setHold n .none).reserve n).CausesHold := State.Every.reserve (hhold .none) n
  have hlane : (((s.setHold n .none).reserve n).lane n).seq = { (s.lane n).seq with holdCause := .none } := by
    simp [State.setHold, Lane.onSeq]
  have hne : (((s.setHold n .none).reserve n).lane n).seq.state ≠ .fault := by
    rw [hlane, hstate]
    exact nofun
  unfold State.testArmed
  repeat' split
  · exact hreserved.enterFilling hne 1
  · exact hreserved.enterGangWait (by rw [hlane]) hne _
  · exact hhold _
  · exact hhold _
  · exact h

theorem takeUp (h : s.CausesHold) {n : LaneId} (hstate : (s.lane n).seq.state ≠ .fault) : (s.takeUp n).CausesHold := by
  unfold State.takeUp
  repeat' split
  · exact h
  · refine testArmed ?_ (by simp [Lane.onSeq])
    refine h.of_only ((s.onlyLanes_onHead (P := (· = n)) rfl _).trans (State.onlyLanes_enterState _ (P := (· = n)) rfl _))
      (Lane.causesMatch_of_held (.inl ?_) ?_)
    · simp [Lane.onSeq]
    · simpa [Lane.onSeq] using (h n).fault_none hstate
  · exact h

theorem applyBank (h : s.CausesHold) (n : LaneId) : (s.applyBank n).CausesHold :=
  State.Every.raiseNoteIf (h.putLane (n := n) (l := (s.lane n).applyBank.1) (h n)) n _

theorem applyPending (h : s.CausesHold) (n : LaneId) : (s.applyPending n).CausesHold := by
  unfold State.applyPending
  split
  · exact h.applyBank n
  · exact h

/-- Entry to IDLE clears both causes, whatever stood before. -/
theorem enterIdle (h : s.CausesHold) (n : LaneId) : (s.enterIdle n).CausesHold := by
  unfold State.enterIdle
  extract_lets cleared
  have hidle : (cleared.enterState n .idle).CausesHold := by
    refine h.of_only ((s.onlyLanes_onLane (P := (· = n)) rfl _).trans (State.onlyLanes_enterState _ (P := (· = n)) rfl _))
      (Lane.causesMatch_of_clear ?_ ?_ ?_) <;> simp [cleared, Lane.onSeq]
  refine takeUp (hidle.applyPending n) ?_
  rw [(State.applyPending_seq _ n).1]
  simp [Lane.onSeq]

theorem enterFault (h : s.CausesHold) (n : LaneId) {c : FaultCause} (hc : c ≠ .none) : (s.enterFault n c).CausesHold := by
  obtain ⟨hstate, hfault, hhold, -⟩ := s.enterFault_stands n c
  exact h.of_only (s.onlyLanes_enterFault (P := (· = n)) rfl c) (Lane.causesMatch_of_faulted hstate hhold (by rw [hfault]; exact hc))

theorem faultClosingAll (h : s.CausesHold) (n : LaneId) {c : FaultCause} (hc : c ≠ .none) :
    (s.faultClosingAll n c).CausesHold :=
  enterFault (State.Every.placeIsolationClose (State.Every.placeHeadClose h n) n) n hc

theorem cutOff (h : s.CausesHold) {n : LaneId} (hstate : (s.lane n).seq.state = .filling ∨ (s.lane n).seq.state = .trickle)
    (c : CutCause) : (s.cutOff n c).CausesHold := by
  have hlane := s.cutOff_lane_self n c
  refine h.of_only (s.onlyLanes_cutOff (P := (· = n)) rfl c) (Lane.causesMatch_of_clear ?_ ?_ ?_) <;> rw [hlane]
  · exact (h n).hold_none (by rcases hstate with e | e <;> rw [e] <;> exact nofun)
      (by rcases hstate with e | e <;> rw [e] <;> exact nofun)
  · exact (h n).fault_none (by rcases hstate with e | e <;> rw [e] <;> exact nofun)
  · exact nofun

theorem enterSettling (h : s.CausesHold) {n : LaneId} (hstate : (s.lane n).seq.state = .cutoff) :
    (s.enterSettling n).CausesHold := by
  refine h.of_only (s.onlyLanes_enterSettling (P := (· = n)) rfl) (Lane.causesMatch_of_clear ?_ ?_ ?_) <;>
    rw [State.enterSettling_eq, State.moved_lane_self]
  · exact (h n).hold_none (by rw [hstate]; exact nofun) (by rw [hstate]; exact nofun)
  · exact (h n).fault_none (by rw [hstate]; exact nofun)
  · exact nofun

theorem enterIndexing (h : s.CausesHold) {n : LaneId} (hstate : (s.lane n).seq.state ≠ .fault) :
    (s.enterIndexing n).CausesHold := by
  refine h.of_only (s.onlyLanes_enterIndexing (P := (· = n)) rfl) (Lane.causesMatch_of_held (.inr ?_) ?_)
  · simp [State.enterIndexing, Lane.onSeq]
  · simpa [State.enterIndexing, Lane.onSeq] using (h n).fault_none hstate

theorem endOrder (h : s.CausesHold) (n : LaneId) (outcome : OrderOutcome) : (s.endOrder n outcome).CausesHold := by
  unfold State.endOrder
  split
  · refine enterIdle (State.Every.endWithRecord ?_ n outcome) n
    split
    · exact State.Every.onLane h fun _ hl => hl
    · exact h
  · exact h

theorem endSettling (h : s.CausesHold) {n : LaneId} (hstate : (s.lane n).seq.state ≠ .fault) :
    (s.endSettling n).CausesHold := by
  unfold State.endSettling
  split
  · rename_i o _
    dsimp only
    generalize hr : (s.lane n).learn o.cancelNoted ((s.lane n).settledResult o.targetKg false) = learned
    have hseq : learned.1.seq = (s.lane n).seq := hr ▸ (s.lane n).learn_seq _ _
    have hlearned : (s.putLane n (learned.1.onSeq fun q => { q with settleTimer := none, fallTimer := none })).CausesHold :=
      h.putLane (((h n).congr hseq : learned.1.CausesMatch) : _)
    have hclosed : ((s.putLane n (learned.1.onSeq fun q =>
        { q with settleTimer := none, fallTimer := none })).closeCompartment n learned.2).CausesHold :=
      State.Every.onLane (State.Every.onHead hlearned n _) fun _ hl => hl
    split
    · exact endOrder hclosed n _
    · exact enterIndexing hclosed (by simpa [State.closeCompartment, Lane.onSeq, hseq] using hstate)
  · exact h

theorem decidePouring (h : s.CausesHold) {n : LaneId}
    (hstate : (s.lane n).seq.state = .filling ∨ (s.lane n).seq.state = .trickle) (r : SampleRecord) (fig : Figures) :
    (s.decidePouring n r fig).CausesHold := by
  unfold State.decidePouring
  extract_lets open' noTrickle position
  have hopen : open'.CausesHold := State.Every.onLane h fun l hl => by
    split
    · exact hl
    · exact hl
  have hseq : (open'.lane n).seq.state = (s.lane n).seq.state := by
    simp only [open', State.onLane_lane_self]
    split <;> rfl
  have hpour : (open'.lane n).seq.state = .filling ∨ (open'.lane n).seq.state = .trickle := hseq ▸ hstate
  split_ifs
  · exact hopen.faultClosingAll n nofun
  · exact hopen.cutOff hpour _
  · exact hopen.cutOff hpour _
  · exact hopen.cutOff hpour _
  · refine State.Every.placePosition (hopen.of_only ((State.onlyLanes_onLane _ (P := (· = n)) rfl _).trans
      (State.onlyLanes_enterState _ (P := (· = n)) rfl _)) (Lane.causesMatch_of_clear ?_ ?_ ?_)) n _
    · simpa [Lane.onSeq] using (hopen n).hold_none (by rcases hpour with e | e <;> rw [e] <;> exact nofun)
        (by rcases hpour with e | e <;> rw [e] <;> exact nofun)
    · simpa [Lane.onSeq] using (hopen n).fault_none (by rcases hpour with e | e <;> rw [e] <;> exact nofun)
    · simp [Lane.onSeq]
  · exact hopen

theorem decideSettling (h : s.CausesHold) {n : LaneId} (hstate : (s.lane n).seq.state = .settling) :
    (s.decideSettling n).CausesHold := by
  unfold State.decideSettling
  extract_lets l quiet counted
  have hcounted : counted.CausesHold := State.Every.onLane h fun _ hl => hl
  split
  · refine hcounted.endSettling ?_
    simp [counted, Lane.onSeq, hstate]
  · exact hcounted

theorem decideIndexing (h : s.CausesHold) {n : LaneId} (hstate : (s.lane n).seq.state = .indexing) :
    (s.decideIndexing n).CausesHold := by
  unfold State.decideIndexing
  repeat' split
  · exact h.enterFilling (by rw [hstate]; exact nofun) _
  · exact h
  · exact h.setHold (.inr hstate) _

theorem decideGangWait (h : s.CausesHold) {n : LaneId} (hstate : (s.lane n).seq.state = .gangWait) :
    (s.decideGangWait n).CausesHold := by
  unfold State.decideGangWait
  split
  · exact h
  · exact h.dropOut (by rw [hstate]; exact nofun) _

theorem stage5Tests (h : s.CausesHold) (n : LaneId) (r : SampleRecord) (fig : Figures) :
    (s.stage5Tests n r fig).CausesHold := by
  unfold State.stage5Tests
  split
  · exact h
  · exact h
  · split
    · rename_i hidle
      exact h.takeUp (by rw [hidle]; exact nofun)
    · exact h.testArmed ‹_›
    · exact h.decideGangWait ‹_›
    · exact h.decidePouring (.inl ‹_›) r fig
    · exact h.decidePouring (.inr ‹_›) r fig
    · split
      · exact h.enterSettling ‹_›
      · exact h
    · exact h.decideSettling ‹_›
    · exact h.decideIndexing ‹_›
    · exact h

theorem regimeCommand (h : s.CausesHold) (n : LaneId) (left : Regime) : (s.regimeCommand n left).CausesHold := by
  unfold State.regimeCommand
  split
  · refine State.Every.placePosition ?_ n _
    exact State.Every.onLane h fun _ hl => hl
  · exact h

theorem stage5 (h : s.CausesHold) (n : LaneId) (r : SampleRecord) (left : Option Regime) (fig : Figures) :
    (s.stage5 n r left fig).CausesHold := by
  have htests := h.stage5Tests n r fig
  unfold State.stage5
  dsimp only
  repeat' split
  · exact htests.regimeCommand n _
  · exact htests
  · exact htests

theorem contact (h : s.CausesHold) (n : LaneId) : (s.contact n).CausesHold := by
  unfold State.contact
  refine State.Every.raiseNoteIf ?_ n _
  exact State.Every.onLane h fun _ hl => hl

theorem laterStages (h : s.CausesHold) (n : LaneId) (r : SampleRecord) : (s.laterStages n r).CausesHold := by
  have h2 : (s.stage2 n r).CausesHold :=
    State.Every.raiseNoteIf (h.putLane ((h n).congr ((s.lane n).stage2_seq r))) n _
  have h3 : ((s.stage2 n r).stage3 n r).CausesHold :=
    State.Every.raiseNoteIf (h2.putLane (l := (((s.stage2 n r).lane n).stage3 r).1) (h2 n)) n _
  unfold State.laterStages
  dsimp only
  refine stage5 ?_ n r _ _
  exact h3.putLane (l := ((((s.stage2 n r).stage3 n r).lane n).stage4 r (((s.stage2 n r).stage3 n r).activeTarget n)).1) (h3 n)

theorem takeSample (h : s.CausesHold) (n : LaneId) (m : Meas) : (s.takeSample n m).CausesHold := by
  have hcontact := h.contact n
  have hstage1 := hcontact.putLane (n := n) ((hcontact n).stage1 m)
  unfold State.takeSample
  dsimp only
  split
  · exact hcontact.onLane fun _ hl => hl
  · split
    · exact laterStages hstage1 n _
    · exact hstage1

theorem silenceReaction (h : s.CausesHold) (n : LaneId) : (s.silenceReaction n).CausesHold := by
  unfold State.silenceReaction
  split
  · exact h
  · exact h
  · split
    · exact h
    · exact h
    · exact h.setHold (.inl ‹_›) _
    · rename_i hwaits
      exact h.dropOut (by rw [hwaits]; exact nofun) _
    · exact h.faultClosingAll n nofun
    · exact h.faultClosingAll n nofun
    · exact h.faultClosingAll n nofun
    · exact h.enterFault n nofun
    · exact h.enterFault n nofun

theorem silenceExpiry (h : s.CausesHold) (n : LaneId) : (s.silenceExpiry n).CausesHold := by
  unfold State.silenceExpiry
  split
  · rename_i timer _
    have hsilenced : ((s.atExpiry timer).onLane n Lane.silenced).CausesHold :=
      State.Every.onLane (h.atExpiry timer) fun _ hl => hl
    exact silenceReaction (State.Every.raiseNote hsilenced n) n
  · exact h

theorem openExpiry (h : s.CausesHold) (n : LaneId) : (s.openExpiry n).CausesHold := by
  unfold State.openExpiry
  split
  · rename_i timer _
    have hstopped : ((s.atExpiry timer).onLane n fun l => l.onSeq fun q => { q with openTimer := none }).CausesHold :=
      onSeq (State.Every.atExpiry h timer) n _
    dsimp only
    generalize State.onLane (State.atExpiry s timer) n _ = u at hstopped ⊢
    split_ifs
    · split
      · exact State.Every.placePosition (hstopped.onSeq n _) n _
      · exact hstopped.onSeq n _
    · exact enterFault (State.Every.placeHeadClose hstopped n) n nofun
    · exact hstopped
  · exact h

theorem closeExpiry (h : s.CausesHold) (n : LaneId) : (s.closeExpiry n).CausesHold := by
  unfold State.closeExpiry
  split
  · rename_i timer _
    have hstopped : ((s.atExpiry timer).onLane n fun l => l.onSeq fun q => { q with closeTimer := none }).CausesHold :=
      onSeq (State.Every.atExpiry h timer) n _
    dsimp only
    generalize State.onLane (State.atExpiry s timer) n _ = u at hstopped ⊢
    split_ifs
    · exact onSeq (State.Every.placeHeadClose hstopped n) n _
    · exact enterFault (State.Every.placeIsolationClose hstopped n) n nofun
    · exact hstopped
  · exact h

theorem fallExpiry (h : s.CausesHold) (n : LaneId) : (s.fallExpiry n).CausesHold := by
  unfold State.fallExpiry
  split
  · exact State.Every.onLane (h.atExpiry _) fun _ hl => hl
  · exact h

theorem settleExpiry (h : s.CausesHold) (n : LaneId) : (s.settleExpiry n).CausesHold := by
  unfold State.settleExpiry
  split
  · rename_i timer _
    have hstopped : ((s.atExpiry timer).onLane n fun l => l.onSeq fun q => { q with settleTimer := none }).CausesHold :=
      onSeq (State.Every.atExpiry h timer) n _
    dsimp only
    generalize State.onLane (State.atExpiry s timer) n _ = u at hstopped ⊢
    split
    · rename_i hsettling
      rw [Bool.and_eq_true, beq_iff_eq, beq_iff_eq] at hsettling
      exact hstopped.endSettling (by rw [hsettling.2]; exact nofun)
    · exact hstopped
  · exact h

theorem gangExpiry (h : s.CausesHold) (n : LaneId) : (s.gangExpiry n).CausesHold := by
  unfold State.gangExpiry
  split
  · rename_i timer _
    have hstopped : ((s.atExpiry timer).onLane n fun l => l.onSeq fun q => { q with gangTimer := none }).CausesHold :=
      onSeq (State.Every.atExpiry h timer) n _
    dsimp only
    generalize State.onLane (State.atExpiry s timer) n _ = u at hstopped ⊢
    split
    · exact hstopped.endOrder n _
    · exact hstopped
  · exact h

theorem restarted (s : State) : s.restarted.CausesHold := fun n => by
  cases n <;> exact Lane.causesMatch_of_clear rfl rfl nofun

theorem boundExpiry (h : s.CausesHold) : s.boundExpiry.CausesHold := by
  unfold State.boundExpiry
  split
  · exact restarted _
  · exact h

theorem selectUp (h : s.CausesHold) : s.selectUp.CausesHold := by
  rcases s.selectUp_cases with e | ⟨_, _, -, -, e⟩ | ⟨x, -, -, -, -, e⟩ | ⟨_, _, -, -, e⟩ <;> rw [e]
  · exact h
  · exact h
  · cases x
    · exact State.Every.onLane (f := fun l => { l with screenedMark := false }) h fun _ hl => hl
    · exact h
  · exact h

theorem transmitEndDp (h : s.CausesHold) : s.transmitEndDp.CausesHold := by
  rcases s.transmitEndDp_cases with ⟨-, e⟩ | ⟨_, -, e⟩ | ⟨_, _, -, -, -, -, e⟩ <;> rw [e]
  · exact h
  · exact h
  · exact restarted _

/-! ### Decisions -/

theorem settleMode (h : s.CausesHold) (n : LaneId) (m : Mode) : (s.settleMode n m).CausesHold := by
  cases m
  · exact State.Every.onLane h fun _ hl => hl
  · exact State.Every.onLane h fun _ hl => hl
  · exact h.enterIdle n

theorem setMode (h : s.CausesHold) (n : LaneId) (m : Mode) : (s.setMode n m).CausesHold := by
  unfold State.setMode
  exact State.Every.raiseNote (h.onSeq n _) n

theorem changeMode (h : s.CausesHold) {n : LaneId} {m : Mode} (ht : s.changeMode n m = some t) : t.CausesHold := by
  unfold State.changeMode at ht
  split at ht
  · split at ht <;> cases ht
    have hentered : (s.onLane n Lane.enterService).CausesHold := State.Every.onLane (f := Lane.enterService) h fun _ hl => hl
    exact (hentered.setMode n m).settleMode n m
  · cases ht
    exact settleMode (h.setMode n m) n m
  · split at ht <;> cases ht
    have hdiscarded : ((s.returnReservation n).putQueue n []).CausesHold := State.Every.returnReservation h n
    unfold State.leaveAuto
    dsimp only
    generalize (s.returnReservation n).putQueue n [] = u at hdiscarded ⊢
    refine settleMode (applyPending (setMode ?_ n m) n) n m
    exact State.Every.onLane (P := fun _ l => l.CausesMatch) hdiscarded fun _ _ => Lane.causesMatch_of_clear rfl rfl nofun

theorem cancelActive (h : s.CausesHold) {n : LaneId} {d : Disposition} (ht : s.cancelActive n = some (t, d)) :
    t.CausesHold := by
  unfold State.cancelActive at ht
  split at ht <;> cases ht
  · exact enterIdle (s := s.putQueue n ((s.queue n).drop 1)) h n
  · exact endOrder (h.onSeq n _) n _
  · exact h.cutOff (.inl ‹_›) _
  · exact h.cutOff (.inr ‹_›) _
  · exact State.Every.onHead h n _
  · exact State.Every.onHead h n _
  · exact h.endOrder n _

theorem clearNotes (h : s.CausesHold) : s.clearNotes.CausesHold := fun n => by
  have hn := h n
  cases n <;> exact hn

theorem acceptRestart (h : s.CausesHold) (src hi lo : Byte) (force : Nat) : (s.acceptRestart src hi lo force).CausesHold := by
  have hcloses : (allLanes.foldl State.closeForRestart s).CausesHold :=
    (((h.closeForRestart .lane0).closeForRestart .lane1).closeForRestart .lane2).closeForRestart .lane3
  unfold State.acceptRestart
  generalize allLanes.foldl State.closeForRestart s = u at hcloses ⊢
  exact clearNotes hcloses

theorem decided (h : s.CausesHold) (hd : Decided s t) : t.CausesHold := by
  cases hd
  case same => exact h
  case route => exact h
  case lane n l hseq => exact h.putLane ((h n).congr hseq)
  case apply n _ =>
    refine applyBank ?_ n
    exact State.Every.onLane h fun _ hl => hl
  case mode n m hm => exact h.changeMode hm
  case post => exact h
  case unqueue => exact h
  case cancel n d o _ hc => exact h.cancelActive hc
  case clearFault n _ => exact h.enterIdle n
  case take => exact h
  case zeroPorts => exact h
  case zeroUnit => exact h
  case acceptRestart src hi lo force _ _ => exact h.acceptRestart src hi lo force
  case restarted => exact restarted s

end State.CausesHold

theorem Lane.pouring_state {l : Lane} (h : l.pouring = true) : l.seq.state = .filling ∨ l.seq.state = .trickle := by
  unfold Lane.pouring at h
  rw [Bool.and_eq_true] at h
  revert h
  cases l.seq.state <;> simp

theorem causesHold_stateOps : StateOps State.CausesHold where
  power _ _ n := by cases n <;> exact Lane.causesMatch_of_clear rfl rfl nofun
  pin _ h := h
  startDelimiter _ p h := State.Every.startDelimiter h p
  bytes _ p _ h := State.Every.putPort h p _
  lineBreak _ p h := State.Every.lineBreak h p
  linkDown _ p h := State.Every.linkDown h p
  endDelimiter _ p h := State.Every.endDelimiter h p
  toSwitch _ _ h := h
  toLanes _ _ h := h
  toResponder _ _ h := h
  pending _ _ h := h
  clock _ _ h := h
  forwardUp _ f h := State.Every.forwardUp h f
  forwardDown _ f h := State.Every.forwardDown h f
  wrongPort _ h := h
  formError _ _ _ h := State.Every.onLane h fun _ hl => hl
  block s n _ _ h := by
    refine State.Every.raiseNote (s := State.onLane s n _) ?_ n
    exact State.Every.onLane h fun _ hl => hl
  cutOff _ _ c _ hpour h := h.cutOff (Lane.pouring_state hpour) c
  takeSample _ n m _ h := h.takeSample n m
  resume _ _ _ h := State.Every.onLane h fun _ hl => hl
  silenceExpiry _ n h := h.silenceExpiry n
  openExpiry _ n h := h.openExpiry n
  closeExpiry _ n h := h.closeExpiry n
  fallExpiry _ n h := h.fallExpiry n
  settleExpiry _ n h := h.settleExpiry n
  gangExpiry _ n h := h.gangExpiry n
  boundExpiry _ h := h.boundExpiry
  selectDp _ h := State.Every.selectDp h
  selectUp _ h := h.selectUp
  endUp _ h := h
  endDp _ h := h.transmitEndDp
  discard _ _ h := h
  controller _ _ _ h := h
  decided _ _ _ hd h := h.decided hd
  reply _ _ _ _ _ h := h

/-- Settles O14: each act of the lane cycle leaves its lane in a state and with the causes of that state. -/
theorem causesMatchTheLaneState : Obligations.CausesMatchTheLaneState :=
  fun _ _ h hstep => step_keeps causesHold_stateOps h hstep

end Sys2Proof.Machine
end

section
/-! SUPPORT. Orders, reservations and the record store (R70, R96, R163): what a lane holds in each stage of its order, what
each act of the lane cycle books, and O13. -/

namespace Sys2Proof.Machine

/-! ### The queue of one lane -/

/-- An order that is not taken up yet. -/
def Order.Queued (o : Order) : Prop := o.active = false ∧ o.reserved = false

theorem forall_queued_iff (q : List Order) :
    (∀ o ∈ q, o.Queued) ↔ (∀ o ∈ q, o.active = false → o.reserved = false) ∧ ∀ o ∈ q, o.active = false :=
  ⟨fun h => ⟨fun o ho _ => (h o ho).2, fun o ho => (h o ho).1⟩, fun h o ho => ⟨h.2 o ho, h.1 o ho (h.2 o ho)⟩⟩

/-- A queue whose head is active, with the reserved mark given, and whose other orders wait. -/
def HeadActive (q : List Order) (reserved : Bool) : Prop :=
  ∃ o rest, q = o :: rest ∧ o.active = true ∧ o.reserved = reserved ∧ ∀ p ∈ rest, p.Queued

/-- The orders of a lane by its mode and state. -/
theorem State.ordersConsistent_iff {s : State} {n : LaneId} :
    s.OrdersConsistent n ↔
      ((s.lane n).seq.mode ≠ .auto → s.queue n = [] ∧ (s.lane n).seq.state = .idle)
        ∧ ((s.lane n).seq.state.hasOrder = true → HeadActive (s.queue n) (s.lane n).seq.state.holdsReservation)
        ∧ ((s.lane n).seq.state.hasOrder = false → ∀ o ∈ s.queue n, o.Queued) := by
  unfold State.OrdersConsistent HeadActive State.activeOrder
  generalize (s.lane n).seq.state = st
  cases s.queue n with
  | nil => cases st <;> simp [LaneState.hasOrder, LaneState.holdsReservation]
  | cons o rest =>
    have hqueued : o.Queued ↔ o.active = false ∧ o.reserved = false := Iff.rfl
    cases ho : o.active <;> cases hr : o.reserved <;> cases st <;>
      simp [LaneState.hasOrder, LaneState.holdsReservation, ho, hr, hqueued, forall_queued_iff]

/-! ### The books beside one lane -/

/-- The lanes other than `n` in a state that holds a reservation. -/
def State.holdersBeside (s : State) (n : LaneId) : Nat :=
  (allLanes.filter fun m => decide (m ≠ n) && (s.lane m).seq.state.holdsReservation).length

/-- The lanes with a property are those beside `n` and, where it has it, `n`. -/
theorem filter_allLanes_length (p : LaneId → Bool) (n : LaneId) :
    (allLanes.filter p).length = (allLanes.filter fun m => decide (m ≠ n) && p m).length + (p n).toNat := by
  have hperm : allLanes.Perm (n :: allLanes.filter fun m => decide (m ≠ n)) := by cases n <;> decide
  rw [(hperm.filter p).length_eq, List.filter_cons, List.filter_filter]
  cases p n <;> simp [Bool.and_comm]

theorem State.holders_eq (s : State) (n : LaneId) :
    s.holders = s.holdersBeside n + (s.lane n).seq.state.holdsReservation.toNat :=
  filter_allLanes_length (fun m => (s.lane m).seq.state.holdsReservation) n

/-- The other lanes' orders are consistent, and the store holds their reservations and `k` more. -/
structure State.BooksBeside (s : State) (n : LaneId) (k : Nat) : Prop where
  others : ∀ m, m ≠ n → s.OrdersConsistent m
  stock : s.reservations = s.holdersBeside n + k
  room : s.records.length + s.reservations ≤ 24

theorem State.storeSound_iff_beside {s : State} (n : LaneId) :
    s.StoreSound ↔ s.OrdersConsistent n ∧ s.BooksBeside n (s.lane n).seq.state.holdsReservation.toNat := by
  constructor
  · rintro ⟨horders, hstock, hroom⟩
    exact ⟨horders n, fun m _ => horders m, by rw [hstock, s.holders_eq n], hroom⟩
  · rintro ⟨hn, hothers, hstock, hroom⟩
    refine ⟨fun m => ?_, by rw [hstock, s.holders_eq n], hroom⟩
    by_cases hm : m = n
    · exact hm ▸ hn
    · exact hothers m hm

/-- An act on lane `n` alone that keeps the reservations and the number of records, or moves both as stated. -/
theorem State.BooksBeside.only {s t : State} {n : LaneId} {k k' : Nat} (h : s.BooksBeside n k)
    (hlane : ∀ m, m ≠ n → t.lane m = s.lane m) (hqueue : ∀ m, m ≠ n → t.queue m = s.queue m)
    (hstock : t.reservations + k = s.reservations + k') (hroom : t.records.length + t.reservations ≤ 24) :
    t.BooksBeside n k' where
  others m hm := by
    unfold State.OrdersConsistent State.activeOrder
    rw [hlane m hm, hqueue m hm]
    exact h.others m hm
  stock := by
    have hbeside : t.holdersBeside n = s.holdersBeside n := by
      unfold State.holdersBeside
      congr 1
      refine List.filter_congr fun m _ => ?_
      by_cases hm : m = n
      · simp [hm]
      · rw [hlane m hm]
    have := h.stock
    omega
  room := hroom

/-! ### A lane with an order under way, and one without -/

/-- Lane `n` is in AUTO with an active order, which holds a reservation where `b` says so; its state is not told. -/
structure State.Engaged (s : State) (n : LaneId) (b : Bool) : Prop where
  books : s.BooksBeside n b.toNat
  auto : (s.lane n).seq.mode = .auto
  head : HeadActive (s.queue n) b

/-- Lane `n` is in AUTO without an active order; its state is not told. -/
structure State.Vacant (s : State) (n : LaneId) : Prop where
  books : s.BooksBeside n 0
  auto : (s.lane n).seq.mode = .auto
  queued : ∀ o ∈ s.queue n, o.Queued

theorem LaneState.holdsReservation_of_not_hasOrder {st : LaneState} (h : st.hasOrder = false) :
    st.holdsReservation = false := (Bool.or_eq_false_iff.mp h).2

theorem LaneState.hasOrder_of_holdsReservation {st : LaneState} (h : st.holdsReservation = true) : st.hasOrder = true := by
  simp [LaneState.hasOrder, h]

namespace State.StoreSound

variable {s t : State} {n : LaneId}

theorem auto (h : s.StoreSound) (hstate : (s.lane n).seq.state ≠ .idle) : (s.lane n).seq.mode = .auto := by
  by_contra hmode
  exact hstate ((h.1 n).1 hmode).2

theorem engaged (h : s.StoreSound) (hstate : (s.lane n).seq.state.hasOrder = true) :
    s.Engaged n (s.lane n).seq.state.holdsReservation where
  books := ((storeSound_iff_beside n).mp h).2
  auto := h.auto fun e => by rw [e] at hstate; cases hstate
  head := (ordersConsistent_iff.mp (h.1 n)).2.1 hstate

theorem holds (h : s.StoreSound) (hstate : (s.lane n).seq.state.holdsReservation = true) : s.Engaged n true :=
  hstate ▸ h.engaged (LaneState.hasOrder_of_holdsReservation hstate)

theorem armed (h : s.StoreSound) (hstate : (s.lane n).seq.state = .armed) : s.Engaged n false := by
  have hengaged := h.engaged (n := n) (by rw [hstate]; rfl)
  rwa [hstate] at hengaged

theorem beside_zero (h : s.StoreSound) (hstate : (s.lane n).seq.state.holdsReservation = false) : s.BooksBeside n 0 := by
  have hbooks := ((storeSound_iff_beside n).mp h).2
  rwa [hstate] at hbooks

theorem vacant (h : s.StoreSound) (hmode : (s.lane n).seq.mode = .auto) (hstate : (s.lane n).seq.state.hasOrder = false) :
    s.Vacant n where
  books := h.beside_zero (LaneState.holdsReservation_of_not_hasOrder hstate)
  auto := hmode
  queued := (ordersConsistent_iff.mp (h.1 n)).2.2 hstate

/-- What leaves the lanes' modes and states, the orders, the reservations and the number of records. -/
theorem congr (h : s.StoreSound)
    (hlane : ∀ m, (t.lane m).seq.mode = (s.lane m).seq.mode ∧ (t.lane m).seq.state = (s.lane m).seq.state)
    (horders : t.orders = s.orders) (hres : t.reservations = s.reservations)
    (hrec : t.records.length = s.records.length) : t.StoreSound := by
  obtain ⟨hconsistent, hstock, hroom⟩ := h
  refine ⟨fun m => ?_, ?_, by rw [hrec, hres]; exact hroom⟩
  · unfold State.OrdersConsistent State.activeOrder State.queue
    rw [(hlane m).1, (hlane m).2, horders]
    exact hconsistent m
  · unfold State.holders
    simp only [(hlane _).2]
    rw [hres]
    exact hstock

/-- An act on lane `n`'s engine that leaves its mode and state. -/
theorem onLane (h : s.StoreSound) (n : LaneId) {f : Lane → Lane}
    (hf : ∀ l : Lane, (f l).seq.mode = l.seq.mode ∧ (f l).seq.state = l.seq.state) : (s.onLane n f).StoreSound :=
  h.congr (fun m => by
    by_cases hm : m = n
    · subst hm
      simpa using hf (s.lane m)
    · rw [(s.onLane_lane_of_ne f hm)]
      exact ⟨rfl, rfl⟩) rfl rfl rfl

theorem putLane (h : s.StoreSound) {l : Lane} (hmode : l.seq.mode = (s.lane n).seq.mode)
    (hstate : l.seq.state = (s.lane n).seq.state) : (s.putLane n l).StoreSound :=
  h.congr (fun m => by
    by_cases hm : m = n
    · subst hm
      simpa using ⟨hmode, hstate⟩
    · simp [hm]) rfl rfl rfl

end State.StoreSound

namespace State.Engaged

variable {s t : State} {n : LaneId} {b : Bool}

theorem storeSound (h : s.Engaged n b) (hstate : (s.lane n).seq.state.hasOrder = true)
    (hholds : (s.lane n).seq.state.holdsReservation = b) : s.StoreSound := by
  refine (storeSound_iff_beside n).mpr ⟨ordersConsistent_iff.mpr ⟨fun hmode => absurd h.auto hmode, fun _ => ?_, ?_⟩, ?_⟩
  · rw [hholds]
    exact h.head
  · exact fun hno => nomatch hstate.symm.trans hno
  · rw [hholds]
    exact h.books

theorem storeSound_holding (h : s.Engaged n true) (hholds : (s.lane n).seq.state.holdsReservation = true) : s.StoreSound :=
  h.storeSound (LaneState.hasOrder_of_holdsReservation hholds) hholds

/-- An act on lane `n` that leaves its mode and queue, the reservations and the number of records. -/
theorem only (h : s.Engaged n b) (ho : s.OnlyLanes (· = n) t) (hmode : (t.lane n).seq.mode = (s.lane n).seq.mode)
    (horders : t.orders = s.orders) (hres : t.reservations = s.reservations)
    (hrec : t.records.length = s.records.length) : t.Engaged n b where
  books := h.books.only ho.lane ho.queue (by rw [hres]) (by rw [hrec, hres]; exact h.books.room)
  auto := hmode.trans h.auto
  head := by
    unfold State.queue
    rw [horders]
    exact h.head

theorem onLane (h : s.Engaged n b) {f : Lane → Lane} (hf : ∀ l : Lane, (f l).seq.mode = l.seq.mode) :
    (s.onLane n f).Engaged n b :=
  h.only (s.onlyLanes_onLane (P := (· = n)) rfl f) (by simpa using hf _) rfl rfl rfl

theorem enterState (h : s.Engaged n b) (st : LaneState) : (s.enterState n st).Engaged n b :=
  h.only (s.onlyLanes_enterState (P := (· = n)) rfl st) (by simp [Lane.onSeq]) (by simp) (by simp) (by simp)

theorem placePosition (h : s.Engaged n b) (p : Nat) : (s.placePosition n p).Engaged n b :=
  h.only (s.onlyLanes_placePosition (P := (· = n)) rfl p) (by simp) (by simp) (by simp) (by simp)

theorem onHead (h : s.Engaged n b) {f : Order → Order}
    (hf : ∀ o : Order, o.active = true → (f o).active = true ∧ (f o).reserved = o.reserved) : (s.onHead n f).Engaged n b where
  books := h.books.only (s.onlyLanes_onHead (P := (· = n)) rfl f).lane (s.onlyLanes_onHead (P := (· = n)) rfl f).queue
    (by simp) (by simpa using h.books.room)
  auto := by simpa using h.auto
  head := by
    obtain ⟨o, rest, hq, hactive, hreserved, hrest⟩ := h.head
    exact ⟨f o, rest, s.onHead_queue_self n f hq, (hf o hactive).1, (hf o hactive).2.trans hreserved, hrest⟩

theorem activeOrder (h : s.Engaged n b) : ∃ o, s.activeOrder n = some o ∧ o.reserved = b := by
  obtain ⟨o, rest, hq, hactive, hreserved, -⟩ := h.head
  exact ⟨o, State.activeOrder_of_queue hq hactive, hreserved⟩

/-- What stands behind the active order waits. -/
theorem queued_drop (h : s.Engaged n b) : ∀ p ∈ (s.queue n).drop 1, p.Queued := by
  obtain ⟨o, rest, hq, -, -, hrest⟩ := h.head
  rw [hq]
  exact hrest

end State.Engaged

theorem Lane.stage1_state (l : Lane) (m : Meas) : (l.stage1 m).1.seq.state = l.seq.state := by
  unfold Lane.stage1
  split
  · rfl
  · dsimp only
    split_ifs <;> rfl

/-! ### Acts of a lane with an order under way -/

/-- A lane without orders, in IDLE, whatever its mode. -/
theorem State.BooksBeside.storeSound_of_empty {s : State} {n : LaneId} (h : s.BooksBeside n 0) (hqueue : s.queue n = [])
    (hstate : (s.lane n).seq.state = .idle) : s.StoreSound := by
  refine (storeSound_iff_beside n).mpr ⟨ordersConsistent_iff.mpr ⟨fun _ => ⟨hqueue, hstate⟩, ?_, fun _ => ?_⟩, ?_⟩
  · rw [hstate]
    exact nofun
  · rw [hqueue]
    exact nofun
  · rw [hstate]
    exact h

theorem State.Vacant.storeSound {s : State} {n : LaneId} (h : s.Vacant n) (hstate : (s.lane n).seq.state.hasOrder = false) :
    s.StoreSound := by
  refine (State.storeSound_iff_beside n).mpr
    ⟨State.ordersConsistent_iff.mpr ⟨fun hmode => absurd h.auto hmode, ?_, fun _ => h.queued⟩, ?_⟩
  · exact fun hsome => nomatch hstate.symm.trans hsome
  · rw [LaneState.holdsReservation_of_not_hasOrder hstate]
    exact h.books

/-- An entry to FILLING leaves a lane that holds a reservation in a state that does. -/
theorem State.enterFilling_holds {s : State} {m : LaneId} (h : (s.lane m).seq.state.holdsReservation = true) (n : LaneId)
    (k : Nat) : ((s.enterFilling n k).lane m).seq.state.holdsReservation = true := by
  by_cases hm : m = n
  · subst hm
    cases ha : s.activeOrder m with
    | none =>
      unfold State.enterFilling
      rw [ha]
      exact h
    | some o =>
      rw [(State.enterFilling_of_active k ha).1]
      show ((s.lane m).opening o (o.targets.getD (k - 1) 0)).2.holdsReservation = true
      rcases (s.lane m).opening_state o (o.targets.getD (k - 1) 0) with e | e <;> rw [e] <;> rfl
  · rw [(s.onlyLanes_enterFilling (P := (· = n)) rfl k).lane m hm]
    exact h

namespace State.Engaged

variable {s t : State} {n : LaneId}

/-- A slot reserved: there is room for it (R164). -/
theorem reserve (h : s.Engaged n false) (hroom : s.canReserve = true) : (s.reserve n).Engaged n true where
  books := by
    have hroom' : s.records.length + s.reservations < 24 := of_decide_eq_true hroom
    refine h.books.only (s.onlyLanes_reserve (P := (· = n)) rfl).lane (s.onlyLanes_reserve (P := (· = n)) rfl).queue ?_ ?_
    · simp [State.reserve]
    · simp only [State.reserve, State.onHead_records, State.onHead_reservations]
      omega
  auto := by simpa using h.auto
  head := by
    obtain ⟨o, rest, hq, hactive, -, hrest⟩ := h.head
    exact ⟨{ o with reserved := true }, rest, State.onHead_queue_self _ n _ hq, hactive, rfl, hrest⟩

/-- A reservation returned (R165). -/
theorem returnReservation (h : s.Engaged n true) : (s.returnReservation n).Engaged n false := by
  obtain ⟨o, rest, hq, hactive, hreserved, hrest⟩ := h.head
  have hstock := h.books.stock
  have heq : s.returnReservation n =
      ({ s with reservations := s.reservations - 1 }).onHead n fun p => { p with reserved := false } := by
    unfold State.returnReservation
    rw [State.activeOrder_of_queue hq hactive]
    exact if_pos hreserved
  have honly := s.onlyLanes_returnReservation (P := (· = n)) rfl
  have hroom := h.books.room
  refine ⟨h.books.only honly.lane honly.queue ?_ ?_, ?_, ?_⟩
  · simp only [heq, State.onHead_reservations, Bool.toNat_true, Bool.toNat_false] at hstock ⊢
    omega
  · simp only [heq, State.onHead_records, State.onHead_reservations]
    omega
  · rw [heq, State.onHead_lane]
    exact h.auto
  · rw [heq]
    exact ⟨{ o with reserved := false }, rest, State.onHead_queue_self _ n _ hq, hactive, rfl, hrest⟩

/-- An order that ends with its record gives its reservation for it (R165). -/
theorem endWithRecord (h : s.Engaged n true) (outcome : OrderOutcome) : (s.endWithRecord n outcome).Vacant n := by
  obtain ⟨o, ha, hreserved⟩ := h.activeOrder
  have honly := s.onlyLanes_endWithRecord (P := (· = n)) rfl outcome
  have hstock := h.books.stock
  have hroom := h.books.room
  have hres : (s.endWithRecord n outcome).reservations = s.reservations - 1 := by
    rw [State.endWithRecord_of_active ha, hreserved]
    rfl
  have hrec : (s.endWithRecord n outcome).records.length = s.records.length + 1 := by
    rw [State.endWithRecord_of_active ha]
    simp
  refine ⟨h.books.only honly.lane honly.queue ?_ ?_, ?_, ?_⟩
  · rw [hres]
    simp only [Bool.toNat_true] at hstock ⊢
    omega
  · rw [hrec, hres]
    simp only [Bool.toNat_true] at hstock
    omega
  · simpa using h.auto
  · rw [State.endWithRecord_queue_self ha]
    exact h.queued_drop

/-- An order without a reservation removed from the queue (R112). -/
theorem remove (h : s.Engaged n false) : (s.putQueue n ((s.queue n).drop 1)).Vacant n where
  books := h.books.only (fun _ _ => rfl) (fun m hm => State.putQueue_queue_of_ne _ _ hm) rfl h.books.room
  auto := h.auto
  queued := by simpa using h.queued_drop

theorem enterFilling (h : s.Engaged n true) (k : Nat) : (s.enterFilling n k).StoreSound := by
  obtain ⟨o, ha, hreserved⟩ := h.activeOrder
  have honly := s.onlyLanes_enterFilling (P := (· = n)) rfl k
  obtain ⟨hlane, -, hqueue, hrec, hres, -⟩ := State.enterFilling_of_active k ha
  have hengaged : (s.enterFilling n k).Engaged n true := by
    refine ⟨h.books.only honly.lane honly.queue (by rw [hres]) (by rw [hrec, hres]; exact h.books.room), ?_, ?_⟩
    · rw [hlane]
      exact h.auto
    · rw [hqueue]
      exact ⟨_, _, rfl, (State.queue_of_activeOrder ha).2, hreserved, h.queued_drop⟩
  refine hengaged.storeSound_holding ?_
  rw [hlane]
  show ((s.lane n).opening o (o.targets.getD (k - 1) 0)).2.holdsReservation = true
  rcases (s.lane n).opening_state o (o.targets.getD (k - 1) 0) with e | e <;> rw [e] <;> rfl

theorem closeCompartment (h : s.Engaged n true) (r : CompResult) : (s.closeCompartment n r).Engaged n true :=
  (h.onHead (f := fun o => { o with results := o.results ++ [r] }) fun _ ho => ⟨ho, rfl⟩).onLane fun _ => rfl

theorem enterFault (h : s.Engaged n true) (c : FaultCause) : (s.enterFault n c).StoreSound := by
  obtain ⟨o, ha, hreserved⟩ := h.activeOrder
  have honly := s.onlyLanes_enterFault (P := (· = n)) rfl c
  obtain ⟨hqueue, hres, hrec⟩ := State.enterFault_ends c ha
  have hstock := h.books.stock
  have hroom := h.books.room
  have hvacant : (s.enterFault n c).Vacant n := by
    refine ⟨h.books.only honly.lane honly.queue ?_ ?_, ?_, ?_⟩
    · rw [hres, if_pos hreserved]
      simp only [Bool.toNat_true] at hstock ⊢
      omega
    · rw [hrec, hres, if_pos hreserved]
      simp only [Bool.toNat_true, List.length_append, List.length_singleton] at hstock ⊢
      omega
    · exact (s.enterFault_engine n c).2.1.trans h.auto
    · rw [hqueue]
      exact h.queued_drop
  refine hvacant.storeSound ?_
  rw [(s.enterFault_stands n c).1]
  rfl

theorem placeHeadClose (h : s.Engaged n true) : (s.placeHeadClose n).Engaged n true :=
  h.only (s.onlyLanes_placeHeadClose (P := (· = n)) rfl) (by simp) (by simp) (by simp) (by simp)

theorem placeIsolationClose (h : s.Engaged n true) : (s.placeIsolationClose n).Engaged n true :=
  h.only (s.onlyLanes_placeIsolationClose (P := (· = n)) rfl) (by simp) (by simp) (by simp) (by simp)

theorem faultClosingAll (h : s.Engaged n true) (c : FaultCause) : (s.faultClosingAll n c).StoreSound :=
  h.placeHeadClose.placeIsolationClose.enterFault c

theorem cutOff (h : s.Engaged n true) (c : CutCause) : (s.cutOff n c).StoreSound := by
  have hlane := s.cutOff_lane_self n c
  obtain ⟨horders, hrec, hres, -⟩ := s.cutOff_rest n c
  refine (h.only (s.onlyLanes_cutOff (P := (· = n)) rfl c) ?_ horders hres (by rw [hrec])).storeSound_holding ?_
  · rw [hlane]
  · rw [hlane]
    rfl

theorem enterSettling (h : s.Engaged n true) : (s.enterSettling n).StoreSound := by
  refine (h.only (s.onlyLanes_enterSettling (P := (· = n)) rfl) ?_ ?_ ?_ ?_).storeSound_holding ?_ <;>
    simp [State.enterSettling, Lane.onSeq, LaneState.holdsReservation]

theorem enterIndexing (h : s.Engaged n true) : (s.enterIndexing n).StoreSound := by
  refine (h.only (s.onlyLanes_enterIndexing (P := (· = n)) rfl) ?_ ?_ ?_ ?_).storeSound_holding ?_ <;>
    simp [State.enterIndexing, Lane.onSeq, LaneState.holdsReservation]

theorem dropOut (h : s.Engaged n true) (c : HoldCause) : (s.dropOut n c).StoreSound := by
  refine (Engaged.enterState (h.returnReservation.onLane ?_) .armed).storeSound ?_ ?_
  · exact fun _ => rfl
  · simp [Lane.onSeq, LaneState.hasOrder]
  · simp [Lane.onSeq, LaneState.holdsReservation]

end State.Engaged

namespace State.StoreSound

variable {s t : State} {n : LaneId}

theorem releaseGang (members : List LaneId) (h : s.StoreSound)
    (hholds : ∀ n ∈ members, (s.lane n).seq.state.holdsReservation = true) : (s.releaseGang members).StoreSound := by
  unfold State.releaseGang
  induction members generalizing s with
  | nil => exact h
  | cons n rest ih =>
    exact ih ((h.holds (hholds n List.mem_cons_self)).enterFilling 1) fun m hm =>
      State.enterFilling_holds (hholds m (List.mem_cons_of_mem n hm)) n 1

end State.StoreSound

theorem State.Engaged.enterGangWait {s : State} {n : LaneId} (h : s.Engaged n true) (o : Order) :
    (s.enterGangWait n o).StoreSound := by
  unfold State.enterGangWait
  extract_lets timer waits members
  have hwaits : waits.StoreSound := by
    refine (Engaged.enterState (h.onLane ?_) .gangWait).storeSound_holding ?_
    · exact fun _ => rfl
    · simp [Lane.onSeq, LaneState.holdsReservation]
  split
  · exact hwaits.releaseGang members fun m hm => by
      rw [(State.mem_waitingSet.mp hm).2.1]
      rfl
  · exact hwaits

namespace State.StoreSound

variable {s t : State} {n : LaneId}

theorem setHold (h : s.StoreSound) (n : LaneId) (c : HoldCause) : (s.setHold n c).StoreSound :=
  h.onLane n fun _ => ⟨rfl, rfl⟩

theorem testArmed (h : s.StoreSound) (hstate : (s.lane n).seq.state = .armed) : (s.testArmed n).StoreSound := by
  have hpassed : (s.setHold n .none).Engaged n false := (h.armed hstate).onLane fun _ => rfl
  have hroom : (s.setHold n .none).canReserve = s.canReserve := rfl
  unfold State.testArmed
  split
  · split
    · split
      · rename_i hcan
        dsimp only
        split
        · exact (hpassed.reserve hcan).enterFilling 1
        · exact (hpassed.reserve hcan).enterGangWait _
      · exact h.setHold n _
    · exact h.setHold n _
  · exact h

end State.StoreSound

namespace State.Vacant

variable {s t : State} {n : LaneId}

theorem takeUp (h : s.Vacant n) (hstate : (s.lane n).seq.state = .idle) : (s.takeUp n).StoreSound := by
  have hsound : s.StoreSound := h.storeSound (by rw [hstate]; rfl)
  unfold State.takeUp
  split
  · rename_i o rest hq
    split
    · exact hsound
    · refine StoreSound.testArmed ?_ (by simp [Lane.onSeq])
      have hactive : (s.onHead n fun o => { o with active := true }).Engaged n false := by
        have honly := s.onlyLanes_onHead (P := (· = n)) rfl fun o => { o with active := true }
        refine ⟨h.books.only honly.lane honly.queue (by simp) (by simpa using h.books.room), by simpa using h.auto, ?_⟩
        have hqueued := h.queued
        rw [hq] at hqueued
        exact ⟨{ o with active := true }, rest, s.onHead_queue_self n _ hq, rfl, (hqueued o List.mem_cons_self).2,
          fun p hp => hqueued p (List.mem_cons_of_mem o hp)⟩
      exact (hactive.enterState .armed).storeSound (by simp [Lane.onSeq, LaneState.hasOrder])
        (by simp [Lane.onSeq, LaneState.holdsReservation])
  · exact hsound

end State.Vacant

namespace State.StoreSound

variable {s t : State} {n : LaneId}

theorem applyBank (h : s.StoreSound) (n : LaneId) : (s.applyBank n).StoreSound :=
  (h.putLane (l := (s.lane n).applyBank.1) rfl rfl).congr (fun _ => by simp [State.applyBank])
    (by simp [State.applyBank]) (by simp [State.applyBank]) (by simp [State.applyBank])

theorem applyPending (h : s.StoreSound) (n : LaneId) : (s.applyPending n).StoreSound := by
  unfold State.applyPending
  split
  · exact h.applyBank n
  · exact h

end State.StoreSound

/-- Entry to IDLE of a lane without an active order, whatever its state before (R93). -/
theorem State.Vacant.enterIdle {s : State} {n : LaneId} (h : s.Vacant n) : (s.enterIdle n).StoreSound := by
  unfold State.enterIdle
  extract_lets cleared
  have hstate : ((cleared.enterState n .idle).lane n).seq.state = .idle := by simp [Lane.onSeq]
  have hmode : ((cleared.enterState n .idle).lane n).seq.mode = .auto := by simpa [cleared, Lane.onSeq] using h.auto
  have hidle : (cleared.enterState n .idle).StoreSound := by
    have honly := (s.onlyLanes_onLane (P := (· = n)) rfl _).trans (State.onlyLanes_enterState cleared (P := (· = n)) rfl .idle)
    refine Vacant.storeSound ⟨h.books.only honly.lane honly.queue (by simp [cleared]) (by simpa [cleared] using h.books.room),
      hmode, ?_⟩ (by rw [hstate]; rfl)
    simpa [cleared, State.queue] using h.queued
  obtain ⟨hseq, -⟩ := State.applyPending_seq (cleared.enterState n .idle) n
  have hstate' : (((cleared.enterState n .idle).applyPending n).lane n).seq.state = .idle := by rw [hseq, hstate]
  have hmode' : (((cleared.enterState n .idle).applyPending n).lane n).seq.mode = .auto := by rw [hseq, hmode]
  exact ((hidle.applyPending n).vacant hmode' (by rw [hstate']; rfl)).takeUp hstate'

theorem State.Engaged.endOrder {s : State} {n : LaneId} (h : s.Engaged n true) (outcome : OrderOutcome) :
    (s.endOrder n outcome).StoreSound := by
  obtain ⟨o, ha, -⟩ := h.activeOrder
  unfold State.endOrder
  rw [ha]
  dsimp only
  split
  · exact ((h.onLane (f := fun l => { l with recon := some (reconOf l o) }) fun _ => rfl).endWithRecord outcome).enterIdle
  · exact (h.endWithRecord outcome).enterIdle

theorem State.Engaged.endSettling {s : State} {n : LaneId} (h : s.Engaged n true) : (s.endSettling n).StoreSound := by
  obtain ⟨o, ha, -⟩ := h.activeOrder
  unfold State.endSettling
  rw [ha]
  dsimp only
  generalize hr : (s.lane n).learn o.cancelNoted ((s.lane n).settledResult o.targetKg false) = learned
  have hseq : learned.1.seq = (s.lane n).seq := hr ▸ (s.lane n).learn_seq _ _
  have hclosed : ((s.putLane n (learned.1.onSeq fun q =>
      { q with settleTimer := none, fallTimer := none })).closeCompartment n learned.2).Engaged n true := by
    refine Engaged.closeCompartment (h.only (s.onlyLanes_putLane (P := (· = n)) rfl _) ?_ rfl rfl rfl) learned.2
    simp [Lane.onSeq, hseq]
  split
  · exact hclosed.endOrder _
  · exact hclosed.enterIndexing

namespace State.StoreSound

variable {s t : State} {n : LaneId}

/-! ### Stage 5 and the sample -/

theorem decidePouring (h : s.StoreSound) (hstate : (s.lane n).seq.state = .filling ∨ (s.lane n).seq.state = .trickle)
    (r : SampleRecord) (fig : Figures) : (s.decidePouring n r fig).StoreSound := by
  unfold State.decidePouring
  extract_lets open' noTrickle position
  have hopen : open'.StoreSound := h.onLane n fun l => by split <;> exact ⟨rfl, rfl⟩
  have hseq : (open'.lane n).seq.state = (s.lane n).seq.state := by
    simp only [open', State.onLane_lane_self]
    split <;> rfl
  have hengaged : open'.Engaged n true := hopen.holds (by rw [hseq]; rcases hstate with e | e <;> rw [e] <;> rfl)
  split_ifs
  · exact hengaged.faultClosingAll _
  · exact hengaged.cutOff _
  · exact hengaged.cutOff _
  · exact hengaged.cutOff _
  · refine (Engaged.placePosition (Engaged.enterState (hengaged.onLane ?_) .trickle) _).storeSound_holding ?_
    · exact fun _ => rfl
    · simp [Lane.onSeq, LaneState.holdsReservation]
  · exact hopen

theorem decideSettling (h : s.StoreSound) (hstate : (s.lane n).seq.state = .settling) : (s.decideSettling n).StoreSound := by
  unfold State.decideSettling
  extract_lets l quiet counted
  have hcounted : counted.StoreSound := h.onLane n fun _ => ⟨rfl, rfl⟩
  split
  · exact (hcounted.holds (n := n) (by simp [counted, Lane.onSeq, hstate, LaneState.holdsReservation])).endSettling
  · exact hcounted

theorem decideIndexing (h : s.StoreSound) (hstate : (s.lane n).seq.state = .indexing) : (s.decideIndexing n).StoreSound := by
  unfold State.decideIndexing
  repeat' split
  · exact (h.holds (n := n) (by rw [hstate]; rfl)).enterFilling _
  · exact h
  · exact h.setHold n _

theorem decideGangWait (h : s.StoreSound) (hstate : (s.lane n).seq.state = .gangWait) : (s.decideGangWait n).StoreSound := by
  unfold State.decideGangWait
  split
  · exact h
  · exact (h.holds (n := n) (by rw [hstate]; rfl)).dropOut _

theorem stage5Tests (h : s.StoreSound) (n : LaneId) (r : SampleRecord) (fig : Figures) :
    (s.stage5Tests n r fig).StoreSound := by
  unfold State.stage5Tests
  split
  · exact h
  · exact h
  · rename_i hmode
    split
    · rename_i hidle
      exact (h.vacant hmode (by rw [hidle]; rfl)).takeUp hidle
    · exact h.testArmed ‹_›
    · exact h.decideGangWait ‹_›
    · exact h.decidePouring (.inl ‹_›) r fig
    · exact h.decidePouring (.inr ‹_›) r fig
    · rename_i hcutoff
      split
      · exact (h.holds (by rw [hcutoff]; rfl)).enterSettling
      · exact h
    · exact h.decideSettling ‹_›
    · exact h.decideIndexing ‹_›
    · exact h

theorem placePosition (h : s.StoreSound) (n : LaneId) (p : Nat) : (s.placePosition n p).StoreSound :=
  h.congr (by simp) (by simp) (by simp) (by simp)

theorem raiseNoteIf (h : s.StoreSound) (n : LaneId) (b : Bool) : (s.raiseNoteIf n b).StoreSound :=
  h.congr (by simp) (by simp) (by simp) (by simp)

theorem regimeCommand (h : s.StoreSound) (n : LaneId) (left : Regime) : (s.regimeCommand n left).StoreSound := by
  unfold State.regimeCommand
  split
  · refine placePosition (h.onLane n ?_) n _
    exact fun _ => ⟨rfl, rfl⟩
  · exact h

theorem stage5 (h : s.StoreSound) (n : LaneId) (r : SampleRecord) (left : Option Regime) (fig : Figures) :
    (s.stage5 n r left fig).StoreSound := by
  have htests := h.stage5Tests n r fig
  unfold State.stage5
  dsimp only
  repeat' split
  · exact htests.regimeCommand n _
  · exact htests
  · exact htests

theorem contact (h : s.StoreSound) (n : LaneId) : (s.contact n).StoreSound := by
  unfold State.contact
  refine raiseNoteIf (h.onLane n ?_) n _
  exact fun _ => ⟨rfl, rfl⟩

theorem laterStages (h : s.StoreSound) (n : LaneId) (r : SampleRecord) : (s.laterStages n r).StoreSound := by
  have hseq2 := (s.lane n).stage2_seq r
  have h2 : (s.stage2 n r).StoreSound :=
    raiseNoteIf (h.putLane (n := n) (l := ((s.lane n).stage2 r).1) (by rw [hseq2]) (by rw [hseq2])) n _
  have h3 : ((s.stage2 n r).stage3 n r).StoreSound :=
    raiseNoteIf (h2.putLane (n := n) (l := (((s.stage2 n r).lane n).stage3 r).1) rfl rfl) n _
  unfold State.laterStages
  dsimp only
  refine stage5 ?_ n r _ _
  exact h3.putLane (n := n)
    (l := ((((s.stage2 n r).stage3 n r).lane n).stage4 r (((s.stage2 n r).stage3 n r).activeTarget n)).1) rfl rfl

theorem takeSample (h : s.StoreSound) (n : LaneId) (m : Meas) : (s.takeSample n m).StoreSound := by
  have hcontact := h.contact n
  have hstage1 : ((s.contact n).putLane n (((s.contact n).lane n).stage1 m).1).StoreSound :=
    hcontact.putLane (((s.contact n).lane n).stage1_mode m) (((s.contact n).lane n).stage1_state m)
  unfold State.takeSample
  dsimp only
  split
  · exact hcontact.onLane n fun _ => ⟨rfl, rfl⟩
  · split
    · exact laterStages hstage1 n _
    · exact hstage1

/-! ### Expiries -/

theorem silenceReaction (h : s.StoreSound) (n : LaneId) : (s.silenceReaction n).StoreSound := by
  unfold State.silenceReaction
  split
  · exact h
  · exact h
  · split <;> rename_i hstate
    · exact h
    · exact h
    · exact h.setHold n _
    · exact (h.holds (by rw [hstate]; rfl)).dropOut _
    · exact (h.holds (by rw [hstate]; rfl)).faultClosingAll _
    · exact (h.holds (by rw [hstate]; rfl)).faultClosingAll _
    · exact (h.holds (by rw [hstate]; rfl)).faultClosingAll _
    · exact (h.holds (by rw [hstate]; rfl)).enterFault _
    · exact (h.holds (by rw [hstate]; rfl)).enterFault _

/-- A timer of lane `n` has ended, and an act on the lane's engine that leaves its mode and state. -/
theorem expired (h : s.StoreSound) (timer : Timer) (n : LaneId) {f : Lane → Lane}
    (hf : ∀ l : Lane, (f l).seq.mode = l.seq.mode ∧ (f l).seq.state = l.seq.state) :
    ((s.atExpiry timer).onLane n f).StoreSound :=
  onLane (h.congr (by simp) (by simp) (by simp) (by simp)) n hf

theorem silenceExpiry (h : s.StoreSound) (n : LaneId) : (s.silenceExpiry n).StoreSound := by
  unfold State.silenceExpiry
  split
  · rename_i timer _
    have hsilenced := h.expired timer n (f := Lane.silenced) fun _ => ⟨rfl, rfl⟩
    exact silenceReaction (hsilenced.congr (by simp) (by simp) (by simp) (by simp)) n
  · exact h

theorem openExpiry (h : s.StoreSound) (n : LaneId) : (s.openExpiry n).StoreSound := by
  unfold State.openExpiry
  split
  · rename_i timer _
    have hstopped := h.expired timer n (f := fun l => l.onSeq fun q => { q with openTimer := none }) fun _ => ⟨rfl, rfl⟩
    dsimp only
    generalize State.onLane (State.atExpiry s timer) n _ = u at hstopped ⊢
    split_ifs with hpour
    · split
      · refine placePosition (hstopped.onLane n ?_) n _
        exact fun _ => ⟨rfl, rfl⟩
      · exact hstopped.onLane n fun _ => ⟨rfl, rfl⟩
    · have hholds : (u.lane n).seq.state.holdsReservation = true := by
        rcases Lane.pouring_state hpour with e | e <;> rw [e] <;> rfl
      exact (hstopped.holds hholds).placeHeadClose.enterFault _
    · exact hstopped
  · exact h

theorem closeExpiry (h : s.StoreSound) (n : LaneId) : (s.closeExpiry n).StoreSound := by
  unfold State.closeExpiry
  split
  · rename_i timer _
    have hstopped := h.expired timer n (f := fun l => l.onSeq fun q => { q with closeTimer := none }) fun _ => ⟨rfl, rfl⟩
    dsimp only
    generalize State.onLane (State.atExpiry s timer) n _ = u at hstopped ⊢
    split_ifs with hcutoff
    · refine onLane (congr hstopped ?_ ?_ ?_ ?_) n ?_
      · exact fun m => by simp
      · exact u.placeHeadClose_orders n
      · exact u.placeHeadClose_reservations n
      · rw [u.placeHeadClose_records n]
      · exact fun _ => ⟨rfl, rfl⟩
    · rw [Bool.and_eq_true, beq_iff_eq, beq_iff_eq] at hcutoff
      exact (hstopped.holds (by rw [hcutoff.2]; rfl)).placeIsolationClose.enterFault _
    · exact hstopped
  · exact h

theorem fallExpiry (h : s.StoreSound) (n : LaneId) : (s.fallExpiry n).StoreSound := by
  unfold State.fallExpiry
  split
  · exact h.expired _ n fun _ => ⟨rfl, rfl⟩
  · exact h

theorem settleExpiry (h : s.StoreSound) (n : LaneId) : (s.settleExpiry n).StoreSound := by
  unfold State.settleExpiry
  split
  · rename_i timer _
    have hstopped := h.expired timer n (f := fun l => l.onSeq fun q => { q with settleTimer := none }) fun _ => ⟨rfl, rfl⟩
    dsimp only
    split
    · rename_i hsettling
      rw [Bool.and_eq_true, beq_iff_eq, beq_iff_eq] at hsettling
      exact (hstopped.holds (by rw [hsettling.2]; rfl)).endSettling
    · exact hstopped
  · exact h

theorem gangExpiry (h : s.StoreSound) (n : LaneId) : (s.gangExpiry n).StoreSound := by
  unfold State.gangExpiry
  split
  · rename_i timer _
    have hstopped := h.expired timer n (f := fun l => l.onSeq fun q => { q with gangTimer := none }) fun _ => ⟨rfl, rfl⟩
    dsimp only
    split
    · rename_i hwaits
      rw [Bool.and_eq_true, beq_iff_eq, beq_iff_eq] at hwaits
      exact (hstopped.holds (by rw [hwaits.2]; rfl)).endOrder _
    · exact hstopped
  · exact h

/-- A unit without orders, records and reservations whose lanes are in IDLE. -/
theorem of_empty (hqueue : ∀ m, s.queue m = []) (hstate : ∀ m, (s.lane m).seq.state = .idle) (hrec : s.records = [])
    (hres : s.reservations = 0) : s.StoreSound := by
  have hholders : ∀ m, s.holdersBeside m = 0 := fun m => by
    unfold State.holdersBeside
    rw [List.length_eq_zero_iff, List.filter_eq_nil_iff]
    intro k _
    rw [hstate k]
    simp [LaneState.holdsReservation]
  have hconsistent : ∀ m, s.OrdersConsistent m := fun m => by
    unfold State.OrdersConsistent State.activeOrder
    rw [hqueue m, hstate m]
    simp [LaneState.hasOrder, LaneState.holdsReservation]
  exact BooksBeside.storeSound_of_empty (n := .lane0)
    ⟨fun m _ => hconsistent m, by rw [hres, hholders], by rw [hrec, hres]; decide⟩ (hqueue _) (hstate _)

theorem restarted (s : State) : s.restarted.StoreSound :=
  of_empty (fun m => by cases m <;> rfl) (fun m => by cases m <;> rfl) rfl rfl

theorem boundExpiry (h : s.StoreSound) : s.boundExpiry.StoreSound := by
  unfold State.boundExpiry
  split
  · exact restarted _
  · exact h

theorem selectUp (h : s.StoreSound) : s.selectUp.StoreSound := by
  refine h.congr (fun m => ?_) (by simp) (by simp) (by simp)
  rcases s.selectUp_cases with e | ⟨_, _, -, -, e⟩ | ⟨x, -, -, -, -, e⟩ | ⟨_, _, -, -, e⟩ <;> rw [e]
  · exact ⟨rfl, rfl⟩
  · exact ⟨rfl, rfl⟩
  · cases x with
    | lane n => cases n <;> cases m <;> exact ⟨rfl, rfl⟩
    | unit => exact ⟨rfl, rfl⟩
  · exact ⟨rfl, rfl⟩

theorem transmitEndDp (h : s.StoreSound) : s.transmitEndDp.StoreSound := by
  rcases s.transmitEndDp_cases with ⟨-, e⟩ | ⟨_, -, e⟩ | ⟨_, _, -, -, -, -, e⟩ <;> rw [e]
  · exact h
  · exact h
  · exact restarted _

end State.StoreSound

namespace State.StoreSound

variable {s t : State} {n : LaneId}

/-! ### Decisions -/

/-- The mode set of a lane in IDLE without orders. -/
theorem setMode (h : s.BooksBeside n 0) (hqueue : s.queue n = []) (hstate : (s.lane n).seq.state = .idle) (m : Mode) :
    (s.setMode n m).StoreSound := by
  have honly := (s.onlyLanes_setMode (P := (· = n)) rfl m)
  refine BooksBeside.storeSound_of_empty (h.only honly.lane honly.queue rfl h.room) hqueue ?_
  simpa [State.setMode, Lane.onSeq] using hstate

theorem settleMode (h : s.StoreSound) {m : Mode} (hmode : (s.lane n).seq.mode = m) (hstate : (s.lane n).seq.state = .idle) :
    (s.settleMode n m).StoreSound := by
  cases m
  · exact h.onLane n fun _ => ⟨rfl, rfl⟩
  · exact h.onLane n fun _ => ⟨rfl, rfl⟩
  · exact (h.vacant hmode (by rw [hstate]; rfl)).enterIdle

/-- A lane in IDLE without orders takes a mode and settles in it. -/
theorem enterMode (h : s.BooksBeside n 0) (hqueue : s.queue n = []) (hstate : (s.lane n).seq.state = .idle) (m : Mode) :
    ((s.setMode n m).settleMode n m).StoreSound :=
  settleMode (setMode h hqueue hstate m) (by simp [State.setMode, Lane.onSeq]) (by simpa [State.setMode, Lane.onSeq] using hstate)

/-- A lane that may leave AUTO, its queue discarded and its reservation returned. -/
theorem discarded (h : s.StoreSound) (hmay : (s.lane n).mayLeaveAuto = true) :
    ((s.returnReservation n).putQueue n []).BooksBeside n 0 := by
  have hbooks : (s.returnReservation n).BooksBeside n 0 := by
    by_cases hwaits : (s.lane n).seq.state = .gangWait
    · exact (h.holds (n := n) (by rw [hwaits]; rfl)).returnReservation.books
    · have hfree : (s.lane n).seq.state.holdsReservation = false := by
        unfold Lane.mayLeaveAuto at hmay
        revert hmay hwaits
        cases (s.lane n).seq.state <;> simp [LaneState.holdsReservation]
      have hsame : s.returnReservation n = s := by
        unfold State.returnReservation
        split
        · rename_i o ho
          rw [((h.1 n).2.2.1 o ho).trans hfree]
          rfl
        · rfl
      rw [hsame]
      exact h.beside_zero hfree
  exact hbooks.only (fun _ _ => rfl) (fun m hm => State.putQueue_queue_of_ne _ _ hm) rfl hbooks.room

theorem changeMode (h : s.StoreSound) {m : Mode} (ht : s.changeMode n m = some t) : t.StoreSound := by
  unfold State.changeMode at ht
  split at ht <;> rename_i hmode
  · split at ht <;> cases ht
    obtain ⟨hqueue, hstate⟩ := (h.1 n).1 (by rw [hmode]; exact nofun)
    have hentered : (s.onLane n Lane.enterService).StoreSound := h.onLane n fun _ => ⟨rfl, rfl⟩
    have hidle : ((s.onLane n Lane.enterService).lane n).seq.state = .idle := by
      rw [State.onLane_lane_self]
      exact hstate
    exact enterMode (hentered.beside_zero (by rw [hidle]; rfl)) hqueue hidle m
  · cases ht
    obtain ⟨hqueue, hstate⟩ := (h.1 n).1 (by rw [hmode]; exact nofun)
    exact enterMode (h.beside_zero (by rw [hstate]; rfl)) hqueue hstate m
  · split at ht <;> cases ht
    rename_i hmay
    have hbooks := h.discarded hmay
    unfold State.leaveAuto
    extract_lets emptied idle
    have hidle : (idle.lane n).seq.state = .idle := by
      rw [show idle.lane n = _ from State.onLane_lane_self ..]
      rfl
    have honly := emptied.onlyLanes_onLane (P := (· = n)) rfl (n := n) (fun l => l.onSeq fun q =>
      { q with state := .idle, holdCause := .none, faultCause := .none, gangTimer := none })
    have hset := setMode (hbooks.only honly.lane honly.queue rfl hbooks.room) (by simp [emptied]) hidle m
    obtain ⟨hseq, -⟩ := State.applyPending_seq (idle.setMode n m) n
    refine settleMode (hset.applyPending n) ?_ ?_
    · rw [hseq]
      simp [State.setMode, Lane.onSeq]
    · rw [hseq]
      simpa [State.setMode, Lane.onSeq] using hidle

/-- The head of an active order's queue changed, marks apart, in a state that holds a reservation. -/
theorem onHead (h : s.StoreSound) {f : Order → Order}
    (hf : ∀ o : Order, o.active = true → (f o).active = true ∧ (f o).reserved = o.reserved)
    (hholds : (s.lane n).seq.state.holdsReservation = true) : (s.onHead n f).StoreSound :=
  ((h.holds hholds).onHead hf).storeSound_holding (by simpa using hholds)

theorem cancelActive (h : s.StoreSound) {d : Disposition} (ht : s.cancelActive n = some (t, d)) : t.StoreSound := by
  unfold State.cancelActive at ht
  split at ht <;> cases ht <;> rename_i hstate
  · exact (h.armed hstate).remove.enterIdle
  · refine Engaged.endOrder (Engaged.onLane (h.holds (by rw [hstate]; rfl)) ?_) _
    exact fun _ => rfl
  · exact (h.holds (by rw [hstate]; rfl)).cutOff _
  · exact (h.holds (by rw [hstate]; rfl)).cutOff _
  · exact h.onHead (fun _ ho => ⟨ho, rfl⟩) (by rw [hstate]; rfl)
  · exact h.onHead (fun _ ho => ⟨ho, rfl⟩) (by rw [hstate]; rfl)
  · exact (h.holds (by rw [hstate]; rfl)).endOrder _

theorem closeForRestart (h : s.StoreSound) (n : LaneId) : (s.closeForRestart n).StoreSound := by
  unfold State.closeForRestart
  split
  · exact h.congr (by simp) (by simp) (by simp) (by simp)
  · exact h

theorem clearNotes (h : s.StoreSound) : s.clearNotes.StoreSound :=
  h.congr (fun m => by cases m <;> exact ⟨rfl, rfl⟩) rfl rfl rfl

theorem acceptRestart (h : s.StoreSound) (src hi lo : Byte) (force : Nat) : (s.acceptRestart src hi lo force).StoreSound := by
  have hcloses : (allLanes.foldl State.closeForRestart s).StoreSound :=
    (((h.closeForRestart .lane0).closeForRestart .lane1).closeForRestart .lane2).closeForRestart .lane3
  unfold State.acceptRestart
  generalize allLanes.foldl State.closeForRestart s = u at hcloses ⊢
  exact clearNotes hcloses

/-- Another queue for lane `n` of the same form. -/
theorem putQueue (h : s.StoreSound) {q : List Order} (hq : (s.putQueue n q).OrdersConsistent n) :
    (s.putQueue n q).StoreSound := by
  obtain ⟨-, hbooks⟩ := (storeSound_iff_beside n).mp h
  exact (storeSound_iff_beside n).mpr
    ⟨hq, hbooks.only (fun _ _ => rfl) (fun m hm => State.putQueue_queue_of_ne _ _ hm) rfl hbooks.room⟩

/-- An order posted joins the tail of the queue (R71). -/
theorem post (h : s.StoreSound) (hmode : (s.lane n).seq.mode = .auto) {o : Order} (ho : o.Queued) :
    (s.putQueue n (s.queue n ++ [o])).StoreSound := by
  refine h.putQueue (ordersConsistent_iff.mpr ⟨fun hno => absurd hmode hno, fun hsome => ?_, fun hno p hp => ?_⟩)
  · obtain ⟨a, rest, hqueue, hactive, hreserved, hrest⟩ := (ordersConsistent_iff.mp (h.1 n)).2.1 hsome
    refine ⟨a, rest ++ [o], by rw [State.putQueue_queue_self, hqueue]; rfl, hactive, hreserved, fun p hp => ?_⟩
    rcases List.mem_append.mp hp with hp | hp
    · exact hrest p hp
    · exact List.mem_singleton.mp hp ▸ ho
  · rw [State.putQueue_queue_self] at hp
    rcases List.mem_append.mp hp with hp | hp
    · exact (ordersConsistent_iff.mp (h.1 n)).2.2 hno p hp
    · exact List.mem_singleton.mp hp ▸ ho

/-- A queued order removed by its tag, which is not the active one's (R75). -/
theorem unqueue (h : s.StoreSound) {tag : Nat} (hqueued : ∀ o, s.activeOrder n = some o → o.tag ≠ tag) :
    (s.putQueue n ((s.queue n).eraseP fun o => o.tag == tag)).StoreSound := by
  refine h.putQueue (ordersConsistent_iff.mpr ⟨fun hmode => ?_, fun hsome => ?_, fun hno p hp => ?_⟩)
  · obtain ⟨hqueue, hstate⟩ := (h.1 n).1 hmode
    exact ⟨by rw [State.putQueue_queue_self, hqueue]; rfl, hstate⟩
  · obtain ⟨a, rest, hqueue, hactive, hreserved, hrest⟩ := (ordersConsistent_iff.mp (h.1 n)).2.1 hsome
    have hother : (a.tag == tag) = false := beq_false_of_ne (hqueued a (State.activeOrder_of_queue hqueue hactive))
    refine ⟨a, rest.eraseP fun o => o.tag == tag, ?_, hactive, hreserved, fun p hp => hrest p (List.mem_of_mem_eraseP hp)⟩
    rw [State.putQueue_queue_self, hqueue, List.eraseP_cons, hother]
    rfl
  · rw [State.putQueue_queue_self] at hp
    exact (ordersConsistent_iff.mp (h.1 n)).2.2 hno p (List.mem_of_mem_eraseP hp)

theorem decided (h : s.StoreSound) (hd : Decided s t) : t.StoreSound := by
  cases hd
  case same => exact h
  case route => exact h
  case lane n l hseq => exact h.putLane (by rw [hseq]) (by rw [hseq])
  case apply n _ =>
    refine applyBank (h.onLane n ?_) n
    exact fun _ => ⟨rfl, rfl⟩
  case mode n m hm => exact h.changeMode hm
  case post n o hmode _ hfresh => exact h.post hmode hfresh
  case unqueue n tag hqueued => exact h.unqueue hqueued
  case cancel n d o _ hc => exact h.cancelActive hc
  case clearFault n hmay =>
    unfold Lane.mayClearFault at hmay
    simp only [Bool.and_eq_true, beq_iff_eq] at hmay
    obtain ⟨⟨⟨hmode, hstate⟩, -⟩, -⟩ := hmay
    exact (h.vacant hmode (by rw [hstate]; rfl)).enterIdle
  case take r rest hrecords =>
    obtain ⟨horders, hstock, hroom⟩ := h
    rw [hrecords, List.length_cons] at hroom
    exact ⟨horders, hstock, by show rest.length + s.reservations ≤ 24; omega⟩
  case zeroPorts => exact h
  case zeroUnit => exact h
  case acceptRestart src hi lo force _ _ => exact h.acceptRestart src hi lo force
  case restarted => exact restarted s

end State.StoreSound

theorem storeSound_stateOps : StateOps State.StoreSound where
  power _ _ := .of_empty (fun m => by cases m <;> rfl) (fun m => by cases m <;> rfl) rfl rfl
  pin _ h := h
  startDelimiter _ _ h := h.congr (by simp) (by simp) (by simp) (by simp)
  bytes _ _ _ h := h.congr (by simp) (by simp) (by simp) (by simp)
  lineBreak _ _ h := h.congr (by simp) (by simp) (by simp) (by simp)
  linkDown _ _ h := h.congr (by simp) (by simp) (by simp) (by simp)
  endDelimiter _ _ h := h.congr (by simp) (by simp) (by simp) (by simp)
  toSwitch _ _ h := h
  toLanes _ _ h := h
  toResponder _ _ h := h
  pending _ _ h := h
  clock _ _ h := h
  forwardUp _ _ h := h.congr (by simp) (by simp) (by simp) (by simp)
  forwardDown _ _ h := h.congr (by simp) (by simp) (by simp) (by simp)
  wrongPort _ h := h
  formError _ n _ h := h.onLane n fun _ => ⟨rfl, rfl⟩
  block _ n _ _ h := by
    have hcounted := h.onLane n (f := fun l =>
      { l with counters := { l.counters with screened := bump l.counters.screened }, screenedMark := true }) fun _ => ⟨rfl, rfl⟩
    exact hcounted.congr (fun _ => ⟨rfl, rfl⟩) rfl rfl rfl
  cutOff _ _ c _ hpour h :=
    (h.holds (by rcases Lane.pouring_state hpour with e | e <;> rw [e] <;> rfl)).cutOff c
  takeSample _ n m _ h := h.takeSample n m
  resume _ n _ h := h.onLane n fun _ => ⟨rfl, rfl⟩
  silenceExpiry _ n h := h.silenceExpiry n
  openExpiry _ n h := h.openExpiry n
  closeExpiry _ n h := h.closeExpiry n
  fallExpiry _ n h := h.fallExpiry n
  settleExpiry _ n h := h.settleExpiry n
  gangExpiry _ n h := h.gangExpiry n
  boundExpiry _ h := h.boundExpiry
  selectDp _ h := h.congr (by simp) (by simp) (by simp) (by simp)
  selectUp _ h := h.selectUp
  endUp _ h := h
  endDp _ h := h.transmitEndDp
  discard _ _ h := h
  controller _ _ _ h := h
  decided _ _ _ hd h := h.decided hd
  reply _ _ _ _ _ h := h

/-- Settles O13: an order holds its reservation from the pass of ARMED to its record, and each act books both sides. -/
theorem reservationsMatchTheLanes : Obligations.ReservationsMatchTheLanes :=
  fun _ _ h hstep => step_keeps storeSound_stateOps h hstep

end Sys2Proof.Machine
end

section
/-! SUPPORT. The step, the resets and the queue of commands (R188, logs 1, 2, 9 and 22): O1 to O5. -/

namespace Sys2Proof.Machine

/-! ### A unit held and a unit running -/

theorem State.whileRunning_of_held {s : State} (h : s.held = true) (f : State → State) : s.whileRunning f = s := by
  unfold State.whileRunning
  rw [if_pos h]

/-- What an act of a running unit leaves alone, the command leaves alone. -/
theorem State.whileRunning_pending {s : State} {f : State → State} (h : (f s).pending = s.pending) :
    (s.whileRunning f).pending = s.pending := by
  unfold State.whileRunning
  split
  · rfl
  · exact h

/-! ### The power-on state -/

theorem State.powerOn_lane (straps : BitVec 7) (q : List Instr) (n : LaneId) : (State.powerOn straps q).lane n = Lane.powerOn := by
  cases n <;> rfl

theorem State.powerOn_queue (straps : BitVec 7) (q : List Instr) (n : LaneId) : (State.powerOn straps q).queue n = [] := by
  cases n <;> rfl

theorem State.powerOn_routeAt (straps : BitVec 7) (q : List Instr) (i : Nat) : (State.powerOn straps q).routeAt i = none := by
  by_cases hi : i < 16
  · simp [State.routeAt, State.powerOn, hi]
  · simp [State.routeAt, hi]

/-! ### The queue of commands -/

theorem State.LanesAndClock.pending {s t : State} (h : s.LanesAndClock t) : t.pending = s.pending := h.choose_spec.pending

theorem State.boundExpiry_pending (s : State) : s.boundExpiry.pending = s.pending := by
  unfold State.boundExpiry
  split
  · exact State.atExpiry_pending s _
  · rfl

theorem State.transmitEnd_pending (s : State) (p : Port) : (s.transmitEnd p).pending = s.pending := by
  cases p with
  | up => rfl
  | dp =>
    show s.transmitEndDp.pending = s.pending
    rcases s.transmitEndDp_cases with ⟨-, h⟩ | ⟨_, -, h⟩ | ⟨_, _, -, -, -, -, h⟩ <;> rw [h]
    rfl

theorem State.screen_pending (s : State) (n : LaneId) (f : Frame) : (s.screen n f).pending = s.pending := by
  unfold State.screen
  dsimp only
  split_ifs
  · rw [State.forwardDown_pending, (s.onlyLanes_cutOff (P := fun _ => True) (n := n) trivial _).pending]
  · exact State.forwardDown_pending ..
  · rfl
  · exact State.forwardDown_pending ..

theorem State.malformed_pending (s : State) (n : LaneId) (f : Frame) : (s.malformed n f).pending = s.pending :=
  State.forwardUp_pending ..

theorem State.classify_pending (s : State) (p : Port) (f : Frame) : (s.classify p f).pending = s.pending := by
  cases p with
  | up =>
    unfold State.classify State.classifyUp
    dsimp only
    repeat' split
    · exact State.forwardDown_pending ..
    · rfl
    · rfl
    · exact State.screen_pending ..
    · exact State.forwardDown_pending ..
    · exact State.forwardDown_pending ..
  | dp =>
    unfold State.classify State.classifyDp
    dsimp only
    repeat' split
    · exact State.forwardUp_pending ..
    · rfl
    · exact State.malformed_pending ..
    · rfl
    · rfl
    · exact State.forwardUp_pending ..

theorem State.handleMeasurement_pending (s : State) (n : LaneId) (f : Frame) :
    (s.handleMeasurement n f).pending = s.pending := by
  unfold State.handleMeasurement
  split
  · rfl
  · split
    · rename_i m _
      have htaken := (s.onlyLanes_takeSample (P := fun _ => True) (n := n) trivial (fun _ _ => trivial) m).pending
      unfold State.annotate
      rw [State.forwardUp_pending, State.onLane_pending, htaken]
    · exact State.malformed_pending ..

/-- A decision leaves the queue of commands. -/
theorem Decided.pending {s t : State} (h : Decided s t) : t.pending = s.pending := by
  cases h
  case apply n _ =>
    exact ((s.onlyLanes_onLane (P := fun _ => True) (n := n) trivial _).trans (State.onlyLanes_applyBank _ (n := n) trivial)).pending
  case mode n m h => exact (State.onlyLanes_changeMode (P := fun _ => True) s t (n := n) trivial (fun _ _ => trivial) m h).pending
  case cancel n o d a h => exact (State.onlyLanes_cancelActive (P := fun _ => True) s (n := n) trivial (fun _ _ => trivial) h).pending
  case clearFault n _ =>
    exact (State.onlyLanes_enterIdle (P := fun _ => True) s (n := n) trivial fun _ _ _ _ _ _ => trivial).pending
  case acceptRestart =>
    have h := State.onlyLanes_closeForRestarts (P := fun _ => True) (fun _ => trivial) s
    unfold State.acceptRestart
    generalize allLanes.foldl State.closeForRestart s = u at h ⊢
    exact h.pending
  all_goals rfl

theorem Decision.deliver_pending (d : Decision) (kind : Byte) (a : Asked) : (d.deliver kind a).pending = d.state.pending := by
  unfold Decision.deliver
  split <;> rfl

theorem State.respond_pending (s : State) (kind src : Byte) (body : List Byte) :
    (s.respond kind src body (decisionOf kind)).pending = s.pending := by
  unfold State.respond
  split
  · rfl
  · dsimp only
    split
    · rfl
    · unfold State.answer
      split
      · dsimp only
        rw [Decision.deliver_pending, (decision_cases (decisionOf_mem kind) _ _).pending]
      · rfl
      · rfl

theorem State.respondPayload_pending (s : State) (src : Byte) (payload : List Byte) :
    (s.respondPayload src payload).pending = s.pending := by
  cases payload with
  | cons kind body => exact State.respond_pending ..
  | nil =>
    show (if s.transparent || !inTurn s.toResponder (src, []) then s else _).pending = s.pending
    split
    · rfl
    · dsimp only
      split
      · rfl
      · rfl

/-- Settles O1: it is the definition of a step. -/
theorem stepRunsTheFrontCommand : Obligations.StepRunsTheFrontCommand := fun _ _ _ => rfl

/-- Settles O2, by the pin. -/
theorem emptyQueuePassesOneMillisecond : Obligations.EmptyQueuePassesOneMillisecond := by
  intro s hempty
  have hstep : step s = .next s.tick := by
    unfold step
    rw [hempty]
  constructor
  · intro hrunning
    rw [hstep, State.tick, hrunning]
    rfl
  · intro hheld
    rw [hstep, State.tick, hheld]
    rfl

/-- Settles O3: no arm of `exec` stops, and the acts of each leave the queue of commands. -/
theorem everyCommandCompletesAndKeepsTheQueue : Obligations.EveryCommandCompletesAndKeepsTheQueue := by
  intro c s
  cases c <;> refine ⟨_, rfl, ?_⟩
  case powerOn => rfl
  case resetPinAssert => rfl
  case resetPinRelease => rfl
  case startDelimiter p => exact State.whileRunning_pending (State.startDelimiter_pending ..)
  case overlongFrame p data => exact State.whileRunning_pending (State.putPort_pending ..)
  case lineBreak p => exact State.whileRunning_pending (State.lineBreak_pending ..)
  case linkDown p => exact State.whileRunning_pending (State.linkDown_pending ..)
  case frameEnd p data =>
    exact State.whileRunning_pending ((State.endDelimiter_pending ..).trans (State.putPort_pending ..))
  case frameClassify p f =>
    refine State.whileRunning_pending ?_
    split
    · exact State.classify_pending ..
    · rfl
  case sample n f =>
    refine State.whileRunning_pending ?_
    split
    · exact State.handleMeasurement_pending ..
    · rfl
  case silenceExpiry n => exact State.whileRunning_pending (s.silenceExpiry_lanesAndClock n).pending
  case openTimerExpiry n => exact State.whileRunning_pending (s.openExpiry_lanesAndClock n).pending
  case closeTimerExpiry n => exact State.whileRunning_pending (s.closeExpiry_lanesAndClock n).pending
  case fallTimerExpiry n => exact State.whileRunning_pending (s.fallExpiry_lanesAndClock n).pending
  case settleTimerExpiry n => exact State.whileRunning_pending (s.settleExpiry_lanesAndClock n).pending
  case gangTimerExpiry n => exact State.whileRunning_pending (s.gangExpiry_lanesAndClock n).pending
  case restartBoundExpiry => exact State.whileRunning_pending s.boundExpiry_pending
  case dpSelection => exact State.whileRunning_pending (State.selectDp_pending ..)
  case upSelection => exact State.whileRunning_pending (State.selectUp_pending ..)
  case transmitEnd p => exact State.whileRunning_pending (s.transmitEnd_pending p)
  case unknownRequest src payload => exact State.whileRunning_pending (s.respondPayload_pending src payload)
  all_goals exact State.whileRunning_pending (State.respond_pending ..)

/-- Settles O4: both commands give `State.powerOn`, whose lanes are all `Lane.powerOn`. -/
theorem powerOnAndPinReleaseGivePowerOnValues : Obligations.PowerOnAndPinReleaseGivePowerOnValues := by
  intro straps s
  refine ⟨State.powerOn straps s.pending, rfl, rfl, rfl, rfl, rfl, State.powerOn_routeAt _ _, rfl, rfl, rfl, rfl, rfl, rfl, rfl,
    rfl, rfl, rfl, ?ports, rfl, rfl, rfl, rfl, rfl, rfl, ?notes, rfl, rfl, rfl, rfl, rfl, ?slots, fun n => ⟨State.powerOn_queue .., ?lane⟩⟩
  case ports => exact fun p => by cases p <;> exact ⟨rfl, rfl, rfl⟩
  case notes => exact fun n => by cases n <;> rfl
  case slots => exact fun n => by cases n <;> rfl
  case lane =>
    rw [State.powerOn_lane]
    refine ⟨rfl, rfl, rfl, rfl, rfl, rfl, rfl, fun r => ?_, rfl, rfl, rfl, rfl, rfl, rfl, rfl, rfl, rfl, rfl, rfl, rfl, rfl, rfl,
      rfl, rfl, rfl, rfl, rfl, rfl, rfl, rfl, rfl, fun r => ?_, rfl, rfl, rfl⟩
    · cases r <;> rfl
    · cases r <;> rfl

/-- Settles O5: every command but those of the pin acts on a running unit alone. -/
theorem heldResetPinStopsTheUnit : Obligations.HeldResetPinStopsTheUnit := by
  refine ⟨fun _ => rfl, fun c s hheld hpower hrelease hassert => ?_⟩
  cases c
  case powerOn straps => exact absurd rfl (hpower straps)
  case resetPinAssert => exact absurd rfl hassert
  case resetPinRelease straps => exact absurd rfl (hrelease straps)
  all_goals exact congrArg Host.Outcome.next (State.whileRunning_of_held hheld _)

end Sys2Proof.Machine
end

section
/-! SUPPORT. The reset state meets every property that steps keep: O16. -/

namespace Sys2Proof.Machine

/-- Settles O16: each property's own power-on case, as its proof of being kept states it. -/
theorem resetMeetsEveryKeptProperty : Obligations.ResetMeetsEveryKeptProperty := by
  intro straps q s hs
  obtain ⟨straps, q, rfl⟩ : ∃ straps q, s = State.powerOn straps q := by
    rcases hs with rfl | rfl
    · exact ⟨straps, q, rfl⟩
    · exact ⟨1, [], rfl⟩
  let routed : LaneId → Prop := fun _ => True
  refine ⟨State.bounded_iff.mpr ⟨unitBounded_storeOps.power straps q, fun n => ?_⟩, urgentDistinct_storeOps.power straps q,
    fun n => ?_, routesSound_powerOn straps q,
    State.inServiceSound_iff.mpr ⟨headsRouted_stateOps.power straps q, fun n => ?_⟩,
    storeSound_stateOps.power straps q, transparentQuiet_stateOps.power straps q,
    drainWithoutPositions_storeOps.power straps q⟩ <;> rw [State.powerOn_lane]
  · exact (laneCounters_laneOps routed).powerOn n
  · exact ⟨tareInBand_powerOn, (meterInRange_laneOps routed).powerOn n, (trimsInLimit_laneOps routed).powerOn n,
      (historyInWindow_laneOps routed).powerOn n, (regimesConsistent_laneOps routed).powerOn n,
      (banksInRange_laneOps routed).powerOn n, Lane.causesMatch_of_clear rfl rfl nofun⟩
  · exact (calibrated_laneOps routed).powerOn n

end Sys2Proof.Machine
end

section
/-! SUPPORT. The receive lines (R134 to R137): data bytes at the receiver, the checks of a closed buffer, and O17 to O20. -/

namespace Sys2Proof.Machine

/-! ### Data bytes at the receiver -/

/-- In HUNT bytes are ignored. -/
theorem PortCommon.takeBytes_of_hunt {c : PortCommon} (h : c.receiver = .hunt) (data : List Byte) : c.takeBytes data = c := by
  have hbyte : ∀ b, c.takeByte b = c := fun b => by
    unfold PortCommon.takeByte
    rw [h]
  unfold PortCommon.takeBytes
  induction data with
  | nil => rfl
  | cons b rest ih => rw [List.foldl_cons, hbyte, ih]

/-- The buffer of a frame takes the bytes that fit. -/
theorem PortCommon.takeBytes_of_fits {c : PortCommon} {buffer : List Byte} (h : c.receiver = .inFrame buffer)
    {data : List Byte} (hfits : buffer.length + data.length ≤ 54) :
    c.takeBytes data = { c with receiver := .inFrame (buffer ++ data) } := by
  unfold PortCommon.takeBytes
  induction data generalizing c buffer with
  | nil => rw [List.append_nil, ← h]; rfl
  | cons b rest ih =>
    rw [List.length_cons] at hfits
    have hbyte : c.takeByte b = { c with receiver := .inFrame (buffer ++ [b]) } := by
      unfold PortCommon.takeByte
      rw [h]
      exact if_pos (by omega)
    rw [List.foldl_cons, hbyte, ih (buffer := buffer ++ [b]) rfl (by rw [List.length_append, List.length_singleton]; omega),
      List.append_assoc]
    rfl

/-- A byte beyond 54 drops the frame, and the bytes after it are ignored. -/
theorem PortCommon.takeBytes_of_overlong {c : PortCommon} {buffer : List Byte} (h : c.receiver = .inFrame buffer)
    {data : List Byte} (hroom : buffer.length ≤ 54) (hover : 54 < buffer.length + data.length) :
    c.takeBytes data =
      { c with receiver := .hunt, counters := { c.counters with formErrors := raised c.counters.formErrors } } := by
  induction data generalizing c buffer with
  | nil => exact absurd hover (Nat.not_lt.mpr hroom)
  | cons b rest ih =>
    rw [List.length_cons] at hover
    show (c.takeByte b).takeBytes rest = _
    unfold PortCommon.takeByte
    rw [h]
    dsimp only
    split_ifs with hb
    · exact ih (buffer := buffer ++ [b]) rfl (by rw [List.length_append, List.length_singleton]; omega)
        (by rw [List.length_append, List.length_singleton]; omega)
    · rw [PortCommon.takeBytes_of_hunt rfl, PortCommon.countForm, bump_eq_raised]

theorem State.putPort_port (s : State) (p : Port) : s.putPort p (s.port p) = s := by cases p <;> rfl

theorem State.putPort_putPort (s : State) (p : Port) (c d : PortCommon) : (s.putPort p c).putPort p d = s.putPort p d := by
  cases p <;> rfl

/-! ### The checks of a closed buffer (R136) -/

/-- The two bytes at the end of a list. -/
theorem exists_append_pair {α : Type} {l : List α} (h : 2 ≤ l.length) : ∃ p a b, l = p ++ [a, b] := by
  obtain ⟨a, b, hab⟩ := List.length_eq_two.mp (by rw [List.length_drop]; omega : (l.drop (l.length - 2)).length = 2)
  exact ⟨l.take (l.length - 2), a, b, by rw [← hab, List.take_append_drop]⟩

/-- The checks in their order, read from the whole buffer. -/
theorem checkFrame_eq (bytes : List Byte) :
    checkFrame bytes =
      if bytes.length < 6 then .formError
      else if 48 < (bytes.getD 3 0).toNat ∨ (bytes.getD 3 0).toNat ≠ bytes.length - 6 then .formError
      else if (bytes.getD 0 0).toNat = 0 ∨ 127 < (bytes.getD 0 0).toNat ∨ (bytes.getD 1 0).toNat = 0
          ∨ 126 < (bytes.getD 1 0).toNat then .formError
      else if checkWord (bytes.take (bytes.length - 2)) ≠
          bytes.getD (bytes.length - 2) 0 ++ bytes.getD (bytes.length - 1) 0 then .checkError
      else .good { dest := bytes.getD 0 0, src := bytes.getD 1 0, kind := bytes.getD 2 0,
                   payload := (bytes.drop 4).take (bytes.length - 6),
                   check := bytes.getD (bytes.length - 2) 0 ++ bytes.getD (bytes.length - 1) 0 } := by
  by_cases hshort : bytes.length < 6
  · rw [if_pos hshort]
    unfold checkFrame
    split
    · rename_i rest
      exact if_pos (by simp only [List.length_cons] at hshort; omega)
    · rfl
  rw [if_neg hshort]
  obtain ⟨dest, src, kind, len, rest, rfl⟩ : ∃ d s k l rest, bytes = d :: s :: k :: l :: rest := by
    match bytes, hshort with
    | d :: s :: k :: l :: rest, _ => exact ⟨d, s, k, l, rest, rfl⟩
    | [], h | [_], h | [_, _], h | [_, _, _], h => simp at h
  obtain ⟨payload, hi, lo, rfl⟩ : ∃ p a b, rest = p ++ [a, b] :=
    exists_append_pair (by simp only [List.length_cons] at hshort; omega)
  have htake : (dest :: src :: kind :: len :: (payload ++ [hi, lo])).take (payload.length + 4)
      = dest :: src :: kind :: len :: payload := by simp
  have hhi : (dest :: src :: kind :: len :: (payload ++ [hi, lo])).getD (payload.length + 4) 0 = hi := by simp
  have hlo : (dest :: src :: kind :: len :: (payload ++ [hi, lo])).getD (payload.length + 5) 0 = lo := by simp
  have hlength : (dest :: src :: kind :: len :: (payload ++ [hi, lo])).length = payload.length + 6 := by simp
  rw [hlength, show payload.length + 6 - 2 = payload.length + 4 from rfl,
    show payload.length + 6 - 1 = payload.length + 5 from rfl, show payload.length + 6 - 6 = payload.length by omega,
    htake, hhi, hlo]
  unfold checkFrame
  have hlong : ¬(payload ++ [hi, lo]).length < 2 := by simp
  have hpayload : (payload ++ [hi, lo]).take ((payload ++ [hi, lo]).length - 2) = payload := by simp
  have hcheck : (payload ++ [hi, lo]).drop ((payload ++ [hi, lo]).length - 2) = [hi, lo] := by simp
  simp only [if_neg hlong, hpayload, hcheck, List.getD_cons_zero, List.getD_cons_succ, List.drop_succ_cons, List.drop_zero,
    List.take_left]
  by_cases hlen : 48 < len.toNat ∨ len.toNat ≠ payload.length
  · simp only [if_pos hlen]
  · simp only [if_neg hlen]
    have hbyte : BitVec.ofNat 8 payload.length = len := by
      rw [← not_not.mp (not_or.mp hlen).2]
      simp
    simp only [headerAndPayload, hbyte, List.cons_append, List.nil_append, ne_eq, ite_not]

/-! ### The statements -/

/-- Settles O17, by the receiver and the link status. -/
theorem startDelimiterAndQuietLineMoveThePort : Obligations.StartDelimiterAndQuietLineMoveThePort := by
  intro s p hheld
  refine ⟨?start, fun hdown => ?down, fun hup => ?up⟩
  case start =>
    refine congrArg Host.Outcome.next ((State.whileRunning_of_not_held hheld _).trans ?_)
    unfold State.startDelimiter PortCommon.countFragment
    dsimp only
    cases hlink : (s.port p).linkUp <;> by_cases hhunt : (s.port p).receiver = .hunt <;>
      cases p <;> simp [hhunt, State.putPort, State.raiseUnitNote, bump_eq_raised]
  case down =>
    refine congrArg Host.Outcome.next ((State.whileRunning_of_not_held hheld _).trans ?_)
    unfold State.linkDown
    rw [hdown]
    rfl
  case up =>
    refine congrArg Host.Outcome.next ((State.whileRunning_of_not_held hheld _).trans ?_)
    unfold State.linkDown
    rw [hup]
    rfl

/-- Settles O18, by whether the bytes fit. -/
theorem overlongFrameIsDroppedAndCounted : Obligations.OverlongFrameIsDroppedAndCounted := by
  intro s p data hheld
  have hexec : exec (.overlongFrame p data) s = .next (s.putPort p ((s.port p).takeBytes data)) :=
    congrArg Host.Outcome.next (State.whileRunning_of_not_held hheld _)
  refine ⟨fun hhunt => ?_, fun buffer hframe hroom => ⟨fun hfits => ?_, fun hover => ?_⟩⟩ <;> rw [hexec]
  · rw [PortCommon.takeBytes_of_hunt hhunt, State.putPort_port]
  · rw [PortCommon.takeBytes_of_fits hframe hfits]
  · rw [PortCommon.takeBytes_of_overlong hframe hroom hover]

/-- Settles O19, by the receiver's state. -/
theorem lineBreakMakesAFragment : Obligations.LineBreakMakesAFragment := by
  intro s p hheld
  have hexec : exec (.lineBreak p) s = .next (s.lineBreak p) :=
    congrArg Host.Outcome.next (State.whileRunning_of_not_held hheld _)
  refine ⟨fun hhunt => ?_, fun buffer hframe => ?_⟩ <;> rw [hexec] <;> unfold State.lineBreak
  · rw [hhunt]
  · rw [hframe]
    simp only [PortCommon.countFragment, bump_eq_raised]

/-- An end delimiter in HUNT does nothing. -/
theorem State.endDelimiter_of_hunt {s : State} {p : Port} (h : (s.port p).receiver = .hunt) : s.endDelimiter p = s := by
  unfold State.endDelimiter
  rw [h]

/-- An end delimiter in a frame: the checks of the buffer in their order. -/
theorem State.endDelimiter_of_frame {s : State} {p : Port} {bytes : List Byte} (h : (s.port p).receiver = .inFrame bytes) :
    s.endDelimiter p =
      (let closed := fun (c' : PortCounters) => s.putPort p { s.port p with receiver := .hunt, counters := c' }
       let c := (s.port p).counters
       if bytes.length < 6 then closed { c with formErrors := raised c.formErrors }
       else if 48 < (bytes.getD 3 0).toNat ∨ (bytes.getD 3 0).toNat ≠ bytes.length - 6 then
         closed { c with formErrors := raised c.formErrors }
       else if (bytes.getD 0 0).toNat = 0 ∨ 127 < (bytes.getD 0 0).toNat ∨ (bytes.getD 1 0).toNat = 0
           ∨ 126 < (bytes.getD 1 0).toNat then
         closed { c with formErrors := raised c.formErrors }
       else if checkWord (bytes.take (bytes.length - 2)) ≠
           bytes.getD (bytes.length - 2) 0 ++ bytes.getD (bytes.length - 1) 0 then
         closed { c with checkErrors := raised c.checkErrors }
       else
         { closed c with
           toSwitch := s.toSwitch ++ [(p, { dest := bytes.getD 0 0, src := bytes.getD 1 0, kind := bytes.getD 2 0,
                                            payload := (bytes.drop 4).take (bytes.length - 6),
                                            check := bytes.getD (bytes.length - 2) 0 ++ bytes.getD (bytes.length - 1) 0 })] }) := by
  unfold State.endDelimiter
  rw [h]
  dsimp only
  rw [checkFrame_eq]
  simp only [PortCommon.countForm, PortCommon.countCheck, bump_eq_raised]
  split_ifs <;> rfl

/-- Settles O20: bytes that do not fit, or the checks of the whole buffer in their order. -/
theorem frameEndChecksTheBuffer : Obligations.FrameEndChecksTheBuffer := by
  intro s p data hheld
  have hexec : exec (.frameEnd p data) s = .next ((s.putPort p ((s.port p).takeBytes data)).endDelimiter p) :=
    congrArg Host.Outcome.next (State.whileRunning_of_not_held hheld _)
  refine ⟨fun hhunt => ?hunt, fun buffer hframe hroom => ?frame⟩
  case hunt => rw [hexec, PortCommon.takeBytes_of_hunt hhunt, State.putPort_port, State.endDelimiter_of_hunt hhunt]
  case frame =>
    intro bytes dest src len check c closed
    have hlength : bytes.length = buffer.length + data.length := List.length_append
    refine hexec.trans (congrArg Host.Outcome.next ?_)
    by_cases hover : 54 < bytes.length
    · rw [if_pos hover, PortCommon.takeBytes_of_overlong hframe hroom (by omega),
        State.endDelimiter_of_hunt (by rw [State.putPort_port_self])]
    · rw [if_neg hover, PortCommon.takeBytes_of_fits hframe (by omega),
        State.endDelimiter_of_frame (bytes := bytes) (by rw [State.putPort_port_self])]
      simp only [State.putPort_port_self, State.putPort_putPort, State.putPort_toSwitch]
      rfl

end Sys2Proof.Machine
end

section
/-! SUPPORT. The frame switch and the screening of gate commands (R147, R156 to R162): O21 to O25. -/

namespace Sys2Proof.Machine

/-! ### A frame's turn -/

/-- The state once a frame that waits for the switch is taken from its list. -/
def State.taking (s : State) (p : Port) (f : Frame) : State := { s with toSwitch := s.toSwitch.erase (p, f) }

theorem exec_frameClassify {s : State} (hheld : s.held = false) {p : Port} {f : Frame}
    (hturn : inTurn (s.waitingAt p) (p, f) = true) :
    exec (.frameClassify p f) s = .next ((s.taking p f).classify p f) :=
  congrArg Host.Outcome.next ((State.whileRunning_of_not_held hheld _).trans (if_pos hturn))

theorem exec_frameClassify_out_of_turn {s : State} (hheld : s.held = false) {p : Port} {f : Frame}
    (hturn : inTurn (s.waitingAt p) (p, f) = false) : exec (.frameClassify p f) s = .next s :=
  congrArg Host.Outcome.next ((State.whileRunning_of_not_held hheld _).trans (if_neg (by rw [hturn]; exact nofun)))

theorem State.classify_up_of_working {s : State} (h : s.Working) (f : Frame) :
    (s.taking .up f).classify .up f = (s.taking .up f).classifyUp f :=
  if_neg (by rw [show (s.taking .up f).transparent = false from h.2]; exact nofun)

theorem State.classify_dp_of_working {s : State} (h : s.Working) (f : Frame) :
    (s.taking .dp f).classify .dp f = (s.taking .dp f).classifyDp f :=
  if_neg (by rw [show (s.taking .dp f).transparent = false from h.2]; exact nofun)

/-! ### The lines of R156 and R157 -/

theorem State.classifyUp_request {s : State} {f : Frame} (hdest : f.dest = s.address) (hkind : f.kind = kindReq) :
    s.classifyUp f = { s with toResponder := s.toResponder ++ [(f.src, f.payload)] } := by
  unfold State.classifyUp
  rw [if_pos hdest, if_pos hkind]

theorem State.classifyUp_own {s : State} {f : Frame} (hdest : f.dest = s.address) (hkind : f.kind ≠ kindReq) :
    s.classifyUp f = s := by
  unfold State.classifyUp
  rw [if_pos hdest, if_neg hkind]

theorem State.classifyUp_other {s : State} {f : Frame} (hdest : f.dest ≠ s.address)
    (hkind : f.kind ≠ kindGate ∨ s.headLane f.dest = none) : s.classifyUp f = s.forwardDown f := by
  unfold State.classifyUp
  rw [if_neg hdest]
  split_ifs with hgate
  · rw [hkind.resolve_left (not_not.mpr hgate)]
  · rfl

theorem State.classifyUp_gate {s : State} {f : Frame} {n : LaneId} (hdest : f.dest ≠ s.address) (hkind : f.kind = kindGate)
    (hlane : s.headLane f.dest = some n) : s.classifyUp f = s.screen n f := by
  unfold State.classifyUp
  rw [if_neg hdest, if_pos hkind, hlane]

theorem State.classifyDp_measured {s : State} {f : Frame} {n : LaneId} (hkind : f.kind = kindMeas)
    (hlane : s.headLane f.src = some n) :
    s.classifyDp f =
      if f.payload.length = 10 then { s with toLanes := s.toLanes ++ [(n, f)] } else s.malformed n f := by
  unfold State.classifyDp State.measuredLane
  rw [if_pos hkind, hlane]

theorem State.measuredLane_none {s : State} {f : Frame} (h : f.kind ≠ kindMeas ∨ s.headLane f.src = none) :
    s.measuredLane f = none := by
  unfold State.measuredLane
  split_ifs with hkind
  · exact h.resolve_left (not_not.mpr hkind)
  · rfl

theorem State.classifyDp_request {s : State} {f : Frame} (h : f.kind ≠ kindMeas ∨ s.headLane f.src = none)
    (hdest : f.dest = s.address) (hkind : f.kind = kindReq) :
    s.classifyDp f = { s with wrongPort := raised s.wrongPort } := by
  unfold State.classifyDp
  rw [State.measuredLane_none h]
  dsimp only
  rw [if_pos hdest, if_pos hkind, bump_eq_raised]

theorem State.classifyDp_own {s : State} {f : Frame} (h : f.kind ≠ kindMeas ∨ s.headLane f.src = none)
    (hdest : f.dest = s.address) (hkind : f.kind ≠ kindReq) : s.classifyDp f = s := by
  unfold State.classifyDp
  rw [State.measuredLane_none h]
  dsimp only
  rw [if_pos hdest, if_neg hkind]

theorem State.classifyDp_other {s : State} {f : Frame} (h : f.kind ≠ kindMeas ∨ s.headLane f.src = none)
    (hdest : f.dest ≠ s.address) : s.classifyDp f = s.forwardUp f := by
  unfold State.classifyDp
  rw [State.measuredLane_none h]
  exact if_neg hdest

theorem State.malformed_eq (s : State) (n : LaneId) (f : Frame) :
    s.malformed n f =
      ({ s with lanes := s.lanes.set n { s.lane n with counters := { (s.lane n).counters with
          formErrors := raised (s.lane n).counters.formErrors } } }).forwardUp f := by
  unfold State.malformed
  simp only [bump_eq_raised]
  rfl

/-! ### Screening (R159 to R161) -/

theorem State.screen_outside_auto {s : State} {n : LaneId} (h : (s.lane n).seq.mode ≠ .auto) (f : Frame) :
    s.screen n f = s.forwardDown f := if_neg h

theorem isClosing_iff (band : Nat) (payload : List Byte) :
    isClosing band payload = true ↔
      ∃ hi lo : Byte, payload = [2, hi, lo] ∨ (payload = [1, hi, lo] ∧ rd16 hi lo ≤ band) := by
  unfold isClosing
  split
  · rename_i cmd p1 p0
    simp only [Bool.or_eq_true, beq_iff_eq, Bool.and_eq_true, decide_eq_true_eq, List.cons.injEq, and_true]
    constructor
    · exact fun h => ⟨p1, p0, h.imp (fun e => ⟨e, rfl, rfl⟩) fun e => ⟨⟨e.1, rfl, rfl⟩, e.2⟩⟩
    · rintro ⟨hi, lo, ⟨e, -, -⟩ | ⟨⟨e, rfl, rfl⟩, hband⟩⟩
      · exact .inl e
      · exact .inr ⟨e, hband⟩
  · rename_i hform
    refine ⟨nofun, ?_⟩
    rintro ⟨hi, lo, rfl | ⟨rfl, -⟩⟩
    · exact absurd rfl (hform 2 hi lo)
    · exact absurd rfl (hform 1 hi lo)

theorem State.screen_opening {s : State} {n : LaneId} {f : Frame} (hmode : (s.lane n).seq.mode = .auto)
    (hclosing : isClosing (s.lane n).params.closedBand f.payload = false) : s.screen n f = s.blockFrame n := by
  unfold State.screen
  dsimp only
  rw [if_pos hmode, hclosing]
  rfl

theorem State.screen_closing {s : State} {n : LaneId} {f : Frame} (hmode : (s.lane n).seq.mode = .auto)
    (hclosing : isClosing (s.lane n).params.closedBand f.payload = true) :
    s.screen n f = (if (s.lane n).pouring then s.cutOff n .operator else s).forwardDown f := by
  unfold State.screen
  dsimp only
  rw [if_pos hmode, if_pos hclosing]

theorem Lane.pouring_iff {l : Lane} (hmode : l.seq.mode = .auto) :
    l.pouring = true ↔ l.seq.state = .filling ∨ l.seq.state = .trickle := by
  unfold Lane.pouring
  rw [hmode]
  cases l.seq.state <;> simp

/-! ### The statements -/

/-- Settles O21, by the room of the opposite port's queue. -/
theorem transparentModeForwardsEveryFrame : Obligations.TransparentModeForwardsEveryFrame := by
  intro s f hheld htransparent
  refine ⟨fun hturn => ?up, fun hturn => ?dp⟩
  case up =>
    have hclassify : (s.taking .up f).classify .up f = (s.taking .up f).forwardDown f := if_pos htransparent
    rw [exec_frameClassify hheld hturn, hclassify]
    unfold State.forwardDown
    simp only [bump_eq_raised]
    rfl
  case dp =>
    have hclassify : (s.taking .dp f).classify .dp f = (s.taking .dp f).forwardUp f := if_pos htransparent
    rw [exec_frameClassify hheld hturn, hclassify]
    unfold State.forwardUp
    simp only [bump_eq_raised]
    rfl

/-- Settles O22, by the first matching line of R156. -/
theorem upFramesAreClassified : Obligations.UpFramesAreClassified := by
  intro s f hworking
  refine ⟨exec_frameClassify_out_of_turn hworking.1, fun hturn => ?_⟩
  rw [exec_frameClassify hworking.1 hturn, State.classify_up_of_working hworking]
  refine ⟨fun hdest hkind => ?_, fun hdest hkind => ?_, fun hdest hkind => ?_, fun hdest hkind n hlane hmode => ?_⟩
  · rw [State.classifyUp_request (s := s.taking .up f) hdest hkind]
    rfl
  · rw [State.classifyUp_own (s := s.taking .up f) hdest hkind]
    rfl
  · rw [State.classifyUp_other (s := s.taking .up f) hdest hkind]
    rfl
  · rw [State.classifyUp_gate (s := s.taking .up f) hdest hkind hlane, State.screen_outside_auto (s := s.taking .up f) hmode]
    rfl

/-- Settles O23, by the first matching line of R157. -/
theorem dpFramesAreClassified : Obligations.DpFramesAreClassified := by
  intro s f hworking
  refine ⟨exec_frameClassify_out_of_turn hworking.1, fun hturn => ?_⟩
  rw [exec_frameClassify hworking.1 hturn, State.classify_dp_of_working hworking]
  refine ⟨fun n hkind hlane => ⟨fun hlength => ?_, fun hlength => ?_⟩, fun hother =>
    ⟨fun hdest hkind => ?_, fun hdest hkind => ?_, fun hdest => ?_⟩⟩
  · rw [State.classifyDp_measured (s := s.taking .dp f) hkind hlane, if_pos hlength]
    rfl
  · rw [State.classifyDp_measured (s := s.taking .dp f) hkind hlane, if_neg hlength, State.malformed_eq]
    rfl
  · rw [State.classifyDp_request (s := s.taking .dp f) hother hdest hkind]
    rfl
  · rw [State.classifyDp_own (s := s.taking .dp f) hother hdest hkind]
    rfl
  · rw [State.classifyDp_other (s := s.taking .dp f) hother hdest]
    rfl

/-- Settles O24: the frame of a lane in AUTO that closes nothing is blocked. -/
theorem autoLaneBlocksOpeningCommands : Obligations.AutoLaneBlocksOpeningCommands := by
  intro s f n hworking hturn hdest hkind hlane hmode hopening
  have hclosing : isClosing (s.lane n).params.closedBand f.payload = false :=
    Bool.eq_false_iff.mpr fun h => hopening ((isClosing_iff _ _).mp h)
  rw [exec_frameClassify hworking.1 hturn, State.classify_up_of_working hworking,
    State.classifyUp_gate (s := s.taking .up f) hdest hkind hlane, State.screen_opening (s := s.taking .up f) hmode hclosing]
  unfold State.blockFrame
  simp only [bump_eq_raised]
  rfl

/-- Settles O25: a closing command is forwarded, behind a cut-off where the lane is filling. -/
theorem closingCommandIsForwardedAndStopsAFillingLane : Obligations.ClosingCommandIsForwardedAndStopsAFillingLane := by
  intro s f n hi lo hworking hturn hdest hkind hlane hmode hpayload t
  have hscreen : exec (.frameClassify .up f) s =
      .next ((if (s.lane n).pouring then t.cutOff n .operator else t).forwardDown f) := by
    rw [exec_frameClassify hworking.1 hturn, State.classify_up_of_working hworking,
      State.classifyUp_gate (s := s.taking .up f) hdest hkind hlane,
      State.screen_closing (s := s.taking .up f) hmode ((isClosing_iff _ _).mpr ⟨hi, lo, hpayload⟩)]
    rfl
  refine ⟨fun hfilling htrickle => ?_, fun hpours => ?_⟩
  · rw [hscreen, if_neg fun h => ((Lane.pouring_iff hmode).mp h).elim hfilling htrickle]
  · refine ⟨_, s.closesPlaced_one n .headClose, ?_⟩
    rw [hscreen, if_pos ((Lane.pouring_iff hmode).mpr hpours), State.cutOff_eq]
    rfl

end Sys2Proof.Machine
end

section
/-! SUPPORT. The transmitters (R140 to R145, R172 to R174): what a selection serves, what the end of a transmission leaves,
and O38 to O40. -/

namespace Sys2Proof.Machine

/-! ### Classes in turn -/

theorem alternate_own {last : Served} {own : State} {forward : Option State} (idle : State)
    (h : last = .forward ∨ forward = none) : alternate last (some own) forward idle = own := by
  rcases h with rfl | rfl
  · rfl
  · cases last <;> rfl

theorem alternate_forward {last : Served} {own : Option State} {forward : State} (idle : State)
    (h : last = .own ∨ own = none) : alternate last own (some forward) idle = forward := by
  rcases h with rfl | rfl
  · rfl
  · cases last <;> rfl

theorem alternate_none (last : Served) (idle : State) : alternate last none none idle = idle := by
  cases last <;> rfl

/-! ### DP (R144) -/

/-- The first entry not yet sent is the one marked. -/
theorem markFirst_append {pre : List UrgentEntry} (hpre : ∀ x ∈ pre, x.sending = true) {e : UrgentEntry}
    (he : e.sending = false) (post : List UrgentEntry) :
    markFirst (pre ++ e :: post) = pre ++ { e with sending := true } :: post := by
  induction pre with
  | nil =>
    rw [List.nil_append, markFirst, he]
    rfl
  | cons x rest ih =>
    rw [List.cons_append, markFirst, if_pos (hpre x List.mem_cons_self), ih fun y hy => hpre y (List.mem_cons_of_mem x hy)]
    rfl

theorem State.selectDp_of_urgent {s : State} (hidle : s.dp.sending = none) {pre post : List UrgentEntry} {e : UrgentEntry}
    (hurgent : s.dp.urgent = pre ++ e :: post) (hpre : ∀ x ∈ pre, x.sending = true) (he : e.sending = false) :
    s.selectDp = { s with dp := { s.dp with
      sending := some (s.urgentFrame e), urgent := pre ++ { e with sending := true } :: post } } := by
  have hfind : (s.dp.urgent.find? fun e => !e.sending) = some e :=
    List.find?_eq_some_iff_append.mpr ⟨by simp [he], pre, post, hurgent, fun x hx => by simp [hpre x hx]⟩
  simp only [State.selectDp, hidle, hfind]
  rw [hurgent, markFirst_append hpre he]

theorem State.selectDp_of_no_urgent {s : State} (hidle : s.dp.sending = none) (h : ∀ x ∈ s.dp.urgent, x.sending = true) :
    s.selectDp = alternate s.dp.lastServed s.serveSlots s.serveForwardDown s := by
  have hfind : (s.dp.urgent.find? fun e => !e.sending) = none :=
    List.find?_eq_none.mpr fun x hx => by simp [h x hx]
  simp only [State.selectDp, hidle, hfind]

theorem State.serveSlots_eq_some {s : State} {pre post : List LaneId} {n : LaneId} {c : SlotCommand}
    (hafter : lanesAfter s.dp.lastLane = pre ++ n :: post) (hpre : ∀ m ∈ pre, s.dp.slots.get m = none)
    (hslot : s.dp.slots.get n = some c) :
    s.serveSlots = some { s with dp := { s.dp with
      sending := some (s.slotFrame c), slots := s.dp.slots.set n none, lastServed := .own, lastLane := n } } := by
  have hnext : s.dp.nextSlot = some (n, c) :=
    List.findSome?_eq_some_iff.mpr ⟨pre, n, post, hafter, by rw [hslot]; rfl, fun m hm => by rw [hpre m hm]; rfl⟩
  unfold State.serveSlots
  rw [hnext]
  rfl

theorem State.serveSlots_eq_none {s : State} (h : ∀ m, s.dp.slots.get m = none) : s.serveSlots = none := by
  have hnext : s.dp.nextSlot = none := List.findSome?_eq_none_iff.mpr fun m _ => by rw [h m]; rfl
  unfold State.serveSlots
  rw [hnext]
  rfl

theorem State.serveForwardDown_cons {s : State} {f : Frame} {rest : List Frame} (h : s.dp.forward = f :: rest) :
    s.serveForwardDown =
      some { s with dp := { s.dp with sending := some f, forward := rest, lastServed := .forward } } := by
  unfold State.serveForwardDown
  rw [h]

theorem State.serveForwardDown_nil {s : State} (h : s.dp.forward = []) : s.serveForwardDown = none := by
  unfold State.serveForwardDown
  rw [h]

theorem exec_dpSelection {s : State} (hheld : s.held = false) : exec .dpSelection s = .next s.selectDp :=
  congrArg Host.Outcome.next (State.whileRunning_of_not_held hheld _)

/-- Settles O38, by the urgent queue and then the classes in turn. -/
theorem dpSelectionServesUrgentFirst : Obligations.DpSelectionServesUrgentFirst := by
  intro s hheld hidle
  rw [exec_dpSelection hheld]
  refine ⟨fun pre post e hurgent hpre he => ?urgent, fun hsent =>
    ⟨fun pre post n c hafter hpre hslot hturn => ?slot, fun f rest hforward hturn => ?forward, fun hforward hslots => ?idle⟩⟩
  case urgent =>
    rw [State.selectDp_of_urgent hidle hurgent hpre he]
    rfl
  case slot =>
    rw [State.selectDp_of_no_urgent hidle hsent, State.serveSlots_eq_some hafter hpre hslot,
      alternate_own _ (hturn.imp_right State.serveForwardDown_nil)]
    rfl
  case forward =>
    rw [State.selectDp_of_no_urgent hidle hsent, State.serveForwardDown_cons hforward,
      alternate_forward _ (hturn.imp_right State.serveSlots_eq_none)]
  case idle =>
    rw [State.selectDp_of_no_urgent hidle hsent, State.serveForwardDown_nil hforward, State.serveSlots_eq_none hslots,
      alternate_none]

/-! ### UP (R145, R172, R173) -/

theorem State.serveOwn_of_reply {s : State} {r : Reply} {rest : List Reply} (h : s.up.replies = r :: rest) :
    s.serveOwn = some { s with up := { s.up with
      sending := some (makeFrame r.dest s.address kindReply r.payload), replies := rest, lastServed := .own } } := by
  unfold State.serveOwn
  rw [h]

theorem State.serveOwn_of_note {s : State} (hreplies : s.up.replies = []) (hcontroller : s.controller ≠ 0)
    {pre post : List NoteSlot} {x : NoteSlot} (hafter : notesAfter s.up.lastNote = pre ++ x :: post)
    (hpre : ∀ y ∈ pre, s.up.notePending y = false) (hx : s.up.notePending x = true) : s.serveOwn = some (s.sendNote x) := by
  have hfind : (notesAfter s.up.lastNote).find? s.up.notePending = some x :=
    List.find?_eq_some_iff_append.mpr ⟨hx, pre, post, hafter, fun y hy => by simp [hpre y hy]⟩
  unfold State.serveOwn
  rw [hreplies]
  dsimp only
  rw [if_neg hcontroller, hfind]
  rfl

theorem State.serveOwn_eq_none {s : State} (hreplies : s.up.replies = [])
    (h : s.controller = 0 ∨ ∀ x : NoteSlot, s.up.notePending x = false) : s.serveOwn = none := by
  unfold State.serveOwn
  rw [hreplies]
  dsimp only
  split_ifs with hcontroller
  · rfl
  · have hfind : (notesAfter s.up.lastNote).find? s.up.notePending = none :=
      List.find?_eq_none.mpr fun x _ => by simp [h.resolve_left hcontroller x]
    rw [hfind]
    rfl

theorem State.serveForwardUp_cons {s : State} {f : Frame} {rest : List Frame} (h : s.up.forward = f :: rest) :
    s.serveForwardUp =
      some { s with up := { s.up with sending := some f, forward := rest, lastServed := .forward } } := by
  unfold State.serveForwardUp
  rw [h]

theorem State.serveForwardUp_nil {s : State} (h : s.up.forward = []) : s.serveForwardUp = none := by
  unfold State.serveForwardUp
  rw [h]

theorem State.selectUp_of_idle {s : State} (h : s.up.sending = none) :
    s.selectUp = alternate s.up.lastServed s.serveOwn s.serveForwardUp s := by
  unfold State.selectUp
  rw [h]

theorem exec_upSelection {s : State} (hheld : s.held = false) : exec .upSelection s = .next s.selectUp :=
  congrArg Host.Outcome.next (State.whileRunning_of_not_held hheld _)

theorem Lane.reportedState_eq (l : Lane) : l.reportedState = if l.seq.mode = .auto then l.seq.state else .idle := by
  unfold Lane.reportedState
  cases l.seq.mode <;> rfl

theorem Lane.noteCause_eq (l : Lane) :
    l.noteCause =
      if l.reportedState = .fault then l.seq.faultCause.code
      else if l.reportedState = .armed ∨ l.reportedState = .indexing then l.seq.holdCause.code else 0 := by
  unfold Lane.noteCause
  cases l.reportedState <;> rfl

/-- The twelve bytes of a lane's note (R172). -/
theorem State.laneNotePayload_eq (s : State) (n : LaneId) :
    let l := s.lane n
    let state := if l.seq.mode = .auto then l.seq.state else .idle
    let cause := if state = .fault then l.seq.faultCause.code
      else if state = .armed ∨ state = .indexing then l.seq.holdCause.code else 0
    s.laneNotePayload n =
      [BitVec.ofNat 8 (laneNum n), l.seq.mode.code, state.code, cause]
        ++ be16 ((s.activeOrder n).elim 0 (·.tag))
        ++ [BitVec.ofNat 8 ((s.activeOrder n).elim 0 (·.compartment)), l.cls.active.code,
            (if l.seq.silentMark then 1 else 0) ||| (if l.zero.buildup then 2 else 0)
              ||| (if l.screenedMark then 4 else 0),
            BitVec.ofNat 8 s.records.length, BitVec.ofNat 8 s.reservations, 0] := by
  unfold State.laneNotePayload State.storeCounts noteMarks flagBit
  dsimp only
  rw [Lane.noteCause_eq, Lane.reportedState_eq, State.activeTagIndex_eq]
  simp

/-- Settles O39, by the classes in turn and, in the unit's own, the reply queue before the note slots. -/
theorem upSelectionAlternatesOwnAndForwardedFrames : Obligations.UpSelectionAlternatesOwnAndForwardedFrames := by
  intro s hheld hidle
  rw [exec_upSelection hheld, State.selectUp_of_idle hidle]
  refine ⟨fun r rest hreplies hturn => ?reply,
    fun pre post n hreplies hcontroller hafter hpre hpending hturn => ?laneNote,
    fun pre post hreplies hcontroller hafter hpre hpending hturn => ?unitNote,
    fun f rest hforward hturn => ?forward, fun hforward hreplies hnone => ?idle⟩
  case reply =>
    rw [State.serveOwn_of_reply hreplies, alternate_own _ (hturn.imp_right State.serveForwardUp_nil)]
    rfl
  case laneNote =>
    rw [State.serveOwn_of_note hreplies hcontroller hafter hpre hpending,
      alternate_own _ (hturn.imp_right State.serveForwardUp_nil)]
    unfold State.sendNote
    dsimp only
    rw [State.laneNotePayload_eq]
    rfl
  case unitNote =>
    rw [State.serveOwn_of_note hreplies hcontroller hafter hpre hpending,
      alternate_own _ (hturn.imp_right State.serveForwardUp_nil)]
    rfl
  case forward =>
    rw [State.serveForwardUp_cons hforward,
      alternate_forward _ (hturn.imp_right fun h => State.serveOwn_eq_none h.1 h.2)]
  case idle =>
    rw [State.serveForwardUp_nil hforward, State.serveOwn_eq_none hreplies hnone, alternate_none]

/-! ### The end of a transmission (R142) -/

theorem exec_transmitEnd {s : State} (hheld : s.held = false) (p : Port) : exec (.transmitEnd p) s = .next (s.transmitEnd p) :=
  congrArg Host.Outcome.next (State.whileRunning_of_not_held hheld _)

theorem State.transmitEndDp_of_idle {s : State} (h : s.dp.sending = none) : s.transmitEndDp = s := by
  unfold State.transmitEndDp
  rw [h]

/-- A transmission on DP ends, and no restart waits for it. -/
theorem State.transmitEndDp_of_no_drain {s : State} {f : Frame} (h : s.dp.sending = some f)
    (hdrain : s.restart = none ∨ (∃ e ∈ s.dp.urgent, e.sending = false) ∨ s.dp.urgent = []) :
    s.transmitEndDp = { s with dp := { s.dp with
      sending := none, urgent := s.dp.urgent.filter fun e => !e.sending } } := by
  unfold State.transmitEndDp
  rw [h]
  dsimp only
  split
  · rename_i hrestart
    refine if_neg fun ⟨hleft, hsome⟩ => ?_
    rcases hdrain with hnone | ⟨e, he, hsending⟩ | hempty
    · exact nomatch hrestart.symm.trans hnone
    · exact (List.filter_eq_nil_iff.mp hleft) e he (by rw [hsending]; rfl)
    · exact hsome hempty
  · rfl

/-- Settles O40. -/
theorem transmitEndFreesTheTransmitter : Obligations.TransmitEndFreesTheTransmitter := by
  intro s hheld
  refine ⟨exec_transmitEnd hheld .up, fun hidle => ?_, fun f hsending hdrain => ?_⟩
  · rw [exec_transmitEnd hheld, State.transmitEnd, State.transmitEndDp_of_idle hidle]
  · rw [exec_transmitEnd hheld, State.transmitEnd, State.transmitEndDp_of_no_drain hsending hdrain]

end Sys2Proof.Machine
end

section
/-! SUPPORT. What requests share (R176 to R180): every request as a payload, the decoding steps, and O41 to O44. -/

namespace Sys2Proof.Machine

/-! ### A request as its payload -/

/-- A request of whatever kind is its payload's request. -/
theorem exec_of_asks {c : Instr} {src : Byte} {payload : List Byte} (h : asks c = some (src, payload)) (s : State) :
    exec c s = .next (s.whileRunning fun s => s.respondPayload src payload) := by
  cases c <;> cases h <;> rfl

theorem State.respondPayload_of_transparent {s : State} (h : s.transparent = true) (src : Byte) (payload : List Byte) :
    s.respondPayload src payload = s := by
  cases payload with
  | nil => exact if_pos (by rw [h]; rfl)
  | cons kind body => exact if_pos (by rw [h]; rfl)

theorem State.respondPayload_out_of_turn {s : State} {src : Byte} {payload : List Byte}
    (h : inTurn s.toResponder (src, payload) = false) : s.respondPayload src payload = s := by
  cases payload with
  | nil => exact if_pos (by rw [h, Bool.not_false, Bool.or_true])
  | cons kind body => exact if_pos (by rw [h, Bool.not_false, Bool.or_true])

theorem State.respondPayload_of_full {s : State} {src : Byte} {payload : List Byte} (ht : s.transparent = false)
    (hturn : inTurn s.toResponder (src, payload) = true) (hfull : 4 ≤ s.up.replies.length) :
    s.respondPayload src payload =
      { s with toResponder := s.toResponder.erase (src, payload), unanswered := raised s.unanswered } := by
  have htaken : ¬(s.transparent || !inTurn s.toResponder (src, payload)) = true := by rw [ht, hturn]; exact nofun
  rw [← bump_eq_raised]
  cases payload with
  | nil => exact (if_neg htaken).trans (if_pos hfull)
  | cons kind body => exact (if_neg htaken).trans (if_pos hfull)

/-- An answered payload without kind. -/
theorem State.respondPayload_nil {s : State} {src : Byte} (h : s.Answers src []) :
    s.respondPayload src [] = (s.asked src []).replying src [0, 0, 0, 4] := by
  obtain ⟨⟨-, ht⟩, hroom, hturn⟩ := h
  have htaken : ¬(s.transparent || !inTurn s.toResponder (src, [])) = true := by rw [ht, hturn]; exact nofun
  exact (if_neg htaken).trans (if_neg (Nat.not_le.mpr hroom))

theorem exec_unknownRequest {s : State} (hheld : s.held = false) (src : Byte) (payload : List Byte) :
    exec (.unknownRequest src payload) s = .next (s.respondPayload src payload) :=
  congrArg Host.Outcome.next (State.whileRunning_of_not_held hheld _)

/-- A payload with its kind, given as a request without one. -/
theorem exec_unknownRequest_cons (s : State) (src kind : Byte) (body : List Byte) :
    exec (.unknownRequest src (kind :: body)) s = .next (s.request kind src body (decisionOf kind)) := rfl

/-- Settles O41. -/
theorem requestsWithoutRoomOrStationAreNotAnswered : Obligations.RequestsWithoutRoomOrStationAreNotAnswered := by
  intro c src payload s hasks hheld
  rw [exec_of_asks hasks, State.whileRunning_of_not_held hheld]
  refine ⟨fun ht => ?_, fun hturn => ?_, fun ht hturn hfull => ?_⟩
  · rw [State.respondPayload_of_transparent ht]
  · rw [State.respondPayload_out_of_turn hturn]
  · rw [State.respondPayload_of_full ht hturn hfull]

/-! ### The decoding steps (R179) -/

/-- The number of argument bytes that each kind needs at least (section 12.3). -/
def argBytes : List Nat := [0, 0, 3, 1, 0, 6, 10, 1, 4, 2, 1, 8, 2, 1, 1, 3, 6, 1, 1, 2, 1]

theorem decodeByteArg_short {args : List Byte} (h : args.length < 1) : decodeByteArg args = none := by
  rw [List.length_eq_zero_iff.mp (Nat.lt_one_iff.mp h)]
  rfl

theorem decodeTagArg_short {args : List Byte} (h : args.length < 2) : decodeTagArg args = none := by
  unfold decodeTagArg
  split
  · simp only [List.length_cons] at h
    omega
  · rfl

theorem decodeRouteSet_short {args : List Byte} (h : args.length < 3) : decodeRouteSet args = none := by
  unfold decodeRouteSet
  split
  · simp only [List.length_cons] at h
    omega
  · rfl

theorem decodeParamSet_short {args : List Byte} (h : args.length < 6) : decodeParamSet args = none := by
  unfold decodeParamSet
  split
  · simp only [List.length_cons] at h
    omega
  · rfl

theorem decodeCurveSet_short {args : List Byte} (h : args.length < 10) : decodeCurveSet args = none := by
  unfold decodeCurveSet
  split
  · simp only [List.length_cons] at h
    omega
  · rfl

theorem decodeBankRead_short {args : List Byte} (h : args.length < 4) : decodeBankRead args = none := by
  unfold decodeBankRead
  split
  · simp only [List.length_cons] at h
    omega
  · rfl

theorem decodeLaneMode_short {args : List Byte} (h : args.length < 2) : decodeLaneMode args = none := by
  unfold decodeLaneMode
  split
  · simp only [List.length_cons] at h
    omega
  · rfl

theorem decodeRecordTake_short {args : List Byte} (h : args.length < 3) : decodeRecordTake args = none := by
  unfold decodeRecordTake
  split
  · simp only [List.length_cons] at h
    omega
  · rfl

theorem decodeScaleResult_short {args : List Byte} (h : args.length < 6) : decodeScaleResult args = none := by
  unfold decodeScaleResult
  split
  · simp only [List.length_cons] at h
    omega
  · rfl

theorem decodeCountersRead_short {args : List Byte} (h : args.length < 2) : decodeCountersRead args = none := by
  unfold decodeCountersRead
  split
  · simp only [List.length_cons] at h
    omega
  · rfl

/-- Targets taken are those in front of what follows them. -/
theorem takeTargets_eq_some {n : Nat} {bytes : List Byte} {targets : List Nat} {after : List Byte}
    (h : takeTargets n bytes = some (targets, after)) : 4 * n ≤ bytes.length ∧ after = bytes.drop (4 * n) := by
  induction n generalizing bytes targets with
  | zero =>
    rw [takeTargets] at h
    cases h
    exact ⟨Nat.zero_le _, rfl⟩
  | succ n ih =>
    unfold takeTargets at h
    split at h
    · rename_i heq
      cases heq
    · rename_i b3 b2 b1 b0 rest heq
      cases heq
      split at h
      · rename_i ts tail htake
        cases h
        obtain ⟨hlength, hdrop⟩ := ih htake
        exact ⟨by simp only [List.length_cons]; omega, hdrop⟩
      · cases h
    · cases h

/-- An ORDER_POST that ends before its last target, its vehicle tag length or its last character. -/
theorem decodeOrderPost_short {l t1 t0 g z nt count : Byte} {rest : List Byte}
    (h : rest.length < 4 * count.toNat + 1 + (rest.getD (4 * count.toNat) 0).toNat) :
    decodeOrderPost (l :: t1 :: t0 :: g :: z :: nt :: count :: rest) = none := by
  unfold decodeOrderPost
  dsimp only
  split
  · rename_i targets len chars htake
    obtain ⟨hlength, hdrop⟩ := takeTargets_eq_some htake
    have hlen : rest.getD (4 * count.toNat) 0 = len := by
      rw [← Nat.add_zero (4 * count.toNat), List.getD_eq_getElem?_getD, ← List.getElem?_drop, ← hdrop]
      rfl
    have hchars : chars.length + 1 = rest.length - 4 * count.toNat := by
      rw [← List.length_drop, ← hdrop, List.length_cons]
    rw [hlen] at h
    exact if_pos (by omega)
  · rfl

theorem decodeOrderPost_too_short {args : List Byte} (h : args.length < 8) : decodeOrderPost args = none := by
  match args, h with
  | l :: t1 :: t0 :: g :: z :: nt :: count :: rest, h =>
    refine decodeOrderPost_short ?_
    simp only [List.length_cons] at h
    omega
  | [], _ | [_], _ | [_, _], _ | [_, _, _], _ | [_, _, _, _], _ | [_, _, _, _, _], _ | [_, _, _, _, _, _], _ => rfl

/-- A known kind whose arguments are too short for it. -/
theorem decisionOf_short {kind : Byte} (hkind : kind.toNat ≤ 20) {a : Asked}
    (hshort : a.args.length < argBytes.getD kind.toNat 0) (s : State) : decisionOf kind a s = refuse s .badArg := by
  unfold decisionOf
  generalize kind.toNat = k at hkind hshort
  interval_cases k
  · exact absurd hshort (Nat.not_lt_zero _)
  · exact absurd hshort (Nat.not_lt_zero _)
  · exact congrArg (withArgs s · _) (decodeRouteSet_short hshort)
  · exact congrArg (withArgs s · _) (decodeByteArg_short hshort)
  · exact absurd hshort (Nat.not_lt_zero _)
  · exact congrArg (withArgs s · _) (decodeParamSet_short hshort)
  · exact congrArg (withArgs s · _) (decodeCurveSet_short hshort)
  · exact congrArg (withArgs s · _) (decodeByteArg_short hshort)
  · exact congrArg (withArgs s · _) (decodeBankRead_short hshort)
  · exact congrArg (withArgs s · _) (decodeLaneMode_short hshort)
  · exact congrArg (withArgs s · _) (decodeByteArg_short hshort)
  · exact congrArg (withArgs s · _) (decodeOrderPost_too_short hshort)
  · exact congrArg (withArgs s · _) (decodeTagArg_short hshort)
  · exact congrArg (withArgs s · _) (decodeByteArg_short hshort)
  · exact congrArg (withArgs s · _) (decodeByteArg_short hshort)
  · exact congrArg (withArgs s · _) (decodeRecordTake_short hshort)
  · exact congrArg (withArgs s · _) (decodeScaleResult_short hshort)
  · exact congrArg (withArgs s · _) (decodeByteArg_short hshort)
  · exact congrArg (withArgs s · _) (decodeByteArg_short hshort)
  · exact congrArg (withArgs s · _) (decodeCountersRead_short hshort)
  · exact congrArg (withArgs s · _) (decodeByteArg_short hshort)

theorem decisionOf_unknown {kind : Byte} (h : kind.toNat = 0 ∨ 20 < kind.toNat) : decisionOf kind = decideUnknown := by
  unfold decisionOf
  split <;> first | omega | rfl

/-- Settles O44, by the length of the payload, the kind and the arguments. -/
theorem decodingStepsOfARequest : Obligations.DecodingStepsOfARequest := by
  refine ⟨fun s src payload ha => ?steps, fun c s src payload hasks => ?form⟩
  case form => rw [exec_of_asks hasks, exec_of_asks rfl]
  case steps =>
    refine ⟨fun hshort => ?tag, fun hlong hunknown => ?unknown, fun hlong hkind hargs => ?args, ?orderPost⟩
    case tag =>
      match payload, hshort, ha with
      | [], _, ha => rw [exec_unknownRequest ha.1.1, State.respondPayload_nil ha]; rfl
      | [kind], _, ha => rw [exec_unknownRequest_cons, State.request_of_answers_nil ha]; rfl
      | [kind, hi], _, ha => rw [exec_unknownRequest_cons, State.request_of_answers_one ha]; rfl
    case unknown =>
      match payload, hlong, ha with
      | kind :: hi :: lo :: args, _, ha =>
        rw [exec_unknownRequest_cons, State.request_of_answers ha, decisionOf_unknown (kind := kind) hunknown]
        rfl
    case args =>
      match payload, hlong, ha with
      | kind :: hi :: lo :: args, _, ha =>
        rw [exec_unknownRequest_cons, State.request_of_answers ha, decisionOf_short (kind := kind) hkind, refuse_deliver]
        · rfl
        · simp only [List.length_cons] at hargs
          exact Nat.lt_of_add_lt_add_left (n := 3) (by rw [Nat.add_comm]; exact hargs)
    case orderPost =>
      intro hi lo lane t1 t0 gang size noTrickle count rest hpayload targets hends
      subst hpayload
      rw [exec_unknownRequest_cons, State.request_of_answers ha]
      exact congrArg (fun x => Host.Outcome.next ((withArgs _ x _).deliver 0x0B _)) (decodeOrderPost_short hends)

end Sys2Proof.Machine
end

section
/-! SUPPORT. Replies (R178 to R180): every decision but RESTART's is answered, a refusal changes nothing, and O42 and
O43. -/

namespace Sys2Proof.Machine

/-- What the responder itself holds is left alone. -/
def State.SameResponder (s t : State) : Prop :=
  t.controller = s.controller ∧ t.toResponder = s.toResponder ∧ t.up.replies = s.up.replies

theorem State.SameResponder.refl (s : State) : s.SameResponder s := ⟨rfl, rfl, rfl⟩

theorem State.OnlyLanes.sameResponder {P : LaneId → Prop} {s t : State} (h : s.OnlyLanes P t) : s.SameResponder t :=
  ⟨h.controller, h.toResponder, by rw [h.up]⟩

/-- A decision that is answered: a refusal, which leaves the state, or a status below 2 with a state that leaves the
responder. -/
inductive Decision.Answered (s : State) : Decision → Prop where
  | refuse (st : Status) : Decision.Answered s (refuse s st)
  | refuseWith (st : Status) (results : List Byte) : Decision.Answered s (refuseWith s st results)
  | carry {t : State} (st : Status) (results : List Byte) (status : (statusCode st).toNat < 2) (same : s.SameResponder t) :
      Decision.Answered s { state := t, reply := some (st, results) }

namespace Decision.Answered

variable {s : State}

theorem accept {t : State} (results : List Byte) (h : s.SameResponder t := by exact ⟨rfl, rfl, rfl⟩) :
    (accept t results).Answered s :=
  carry .ok results (by decide) h

theorem withArgs {α : Type} (x : Option α) {f : α → Decision} (hf : ∀ a, (f a).Answered s) :
    (withArgs s x f).Answered s := by
  cases x with
  | some a => exact hf a
  | none => exact .refuse .badArg

theorem withLane (k : Nat) {f : LaneId → Decision} (hf : ∀ n, (f n).Answered s) : (withLane s k f).Answered s := by
  unfold Machine.withLane
  split
  · exact hf _
  · exact .refuse .badArg

end Decision.Answered

/-! ### The decisions, one by one -/

section
variable (a : Asked) (s : State)

theorem decideRouteSet_answered : (decideRouteSet a s).Answered s := by
  refine .withArgs _ fun r => ?_
  split
  · exact .refuse _
  · split
    · unfold State.decideRoute
      repeat' split
      · exact .refuse _
      · exact .refuseWith _ _
      · exact .refuseWith _ _
      · exact .refuseWith _ _
      · exact .accept _
    · exact .refuse _

theorem decideRouteClear_answered : (decideRouteClear a s).Answered s := by
  refine .withArgs _ fun i => ?_
  repeat' split
  · exact .refuse _
  · exact .refuse _
  · exact .accept _

theorem decideParamSet_answered : (decideParamSet a s).Answered s := by
  refine .withArgs _ fun r => .withLane _ fun n => ?_
  repeat' split
  · exact .refuse _
  · exact .refuse _
  · refine .carry _ _ ?_ (.refl s)
    split <;> decide

theorem decideCurveSet_answered : (decideCurveSet a s).Answered s := by
  refine .withArgs _ fun r => .withLane _ fun n => ?_
  repeat' split
  · exact .refuse _
  · exact .refuse _
  · exact .refuse _
  · exact .accept _

theorem decideCommit_answered : (decideCommit a s).Answered s := by
  refine .withArgs _ fun r => .withLane _ fun n => ?_
  repeat' split
  · exact .refuse _
  · exact .refuseWith _ _
  · unfold State.commitLane
    dsimp only
    split
    · exact .accept _ (((s.onlyLanes_onLane (P := fun _ => True) (n := n) trivial _).trans
        (State.onlyLanes_applyBank _ (n := n) trivial)).sameResponder)
    · exact .accept _

theorem decideBankRead_answered : (decideBankRead a s).Answered s := by
  refine .withArgs _ fun r => .withLane _ fun n => ?_
  split
  · exact .accept _
  · exact .refuse _

theorem decideLaneMode_answered : (decideLaneMode a s).Answered s := by
  refine .withArgs _ fun r => .withLane _ fun n => ?_
  repeat' split
  · exact .refuse _
  · exact .accept _
  · exact .accept _ (State.onlyLanes_changeMode (P := fun _ => True) s _ (n := n) trivial (fun _ _ => trivial) _ ‹_›).sameResponder
  · exact .refuse _

theorem decideZeroCal_answered : (decideZeroCal a s).Answered s := by
  refine .withArgs _ fun r => .withLane _ fun n => ?_
  split
  · exact .accept _
  · exact .refuse _

theorem decideOrderPost_answered : (decideOrderPost a s).Answered s := by
  refine .withArgs _ fun r => .withLane _ fun n => ?_
  repeat' split
  · exact .refuse _
  · exact .refuse _
  · exact .refuseWith _ _
  · exact .refuseWith _ _
  · exact .refuse _
  · exact .accept _

theorem decideOrderCancel_answered : (decideOrderCancel a s).Answered s := by
  refine .withArgs _ fun tag => ?_
  repeat' split
  · exact .refuse _
  · rename_i n _
    unfold State.cancelIn
    repeat' split
    · exact .accept _ (State.onlyLanes_cancelActive (P := fun _ => True) s (n := n) trivial (fun _ _ => trivial) ‹_›).sameResponder
    · exact .refuse _
    · exact .accept _
    · exact .accept _
  · exact .refuse _

theorem decideRecordTake_answered : (decideRecordTake a s).Answered s := by
  refine .withArgs _ fun r => ?_
  repeat' split
  · exact .refuse _
  · exact .refuse _
  · exact .refuse _
  · exact .refuse _
  · refine .accept _ ?_
    unfold State.dropRecord
    split <;> exact ⟨rfl, rfl, rfl⟩

theorem decideScaleResult_answered : (decideScaleResult a s).Answered s := by
  refine .withArgs _ fun r => ?_
  repeat' split
  · exact .refuse _
  · exact .refuse _
  · refine .carry _ _ ?_ (.refl s)
    split <;> decide
  · exact .refuse _

theorem decideFaultClear_answered : (decideFaultClear a s).Answered s := by
  refine .withArgs _ fun r => .withLane _ fun n => ?_
  split
  · exact .accept _ (State.onlyLanes_enterIdle (P := fun _ => True) s (n := n) trivial fun _ _ _ _ _ _ => trivial).sameResponder
  · exact .refuse _

theorem decideCountersRead_answered : (decideCountersRead a s).Answered s := by
  refine .withArgs _ fun r => ?_
  split
  · refine .accept _ ?_
    split
    · rename_i g _ _
      cases g <;> exact .refl s
    · exact .refl s
  · exact .refuse _

/-- Every kind but RESTART is answered. -/
theorem decisionOf_answered {kind : Byte} (h : kind.toNat ≠ 0x14) : (decisionOf kind a s).Answered s := by
  suffices hall : ∀ d, decisionOf kind = d → (d a s).Answered s from hall _ rfl
  intro d hd
  unfold decisionOf at hd
  split at hd <;> subst hd
  · exact .accept _
  · exact decideRouteSet_answered a s
  · exact decideRouteClear_answered a s
  · exact .accept _
  · exact decideParamSet_answered a s
  · exact decideCurveSet_answered a s
  · exact decideCommit_answered a s
  · exact decideBankRead_answered a s
  · exact decideLaneMode_answered a s
  · exact decideZeroCal_answered a s
  · exact decideOrderPost_answered a s
  · exact decideOrderCancel_answered a s
  · exact .withArgs _ fun _ => .withLane _ fun _ => .accept _
  · exact .withArgs _ fun _ => .withLane _ fun _ => .accept _
  · exact decideRecordTake_answered a s
  · exact decideScaleResult_answered a s
  · exact decideFaultClear_answered a s
  · exact .withArgs _ fun _ => .withLane _ fun _ => .accept _
  · exact decideCountersRead_answered a s
  · exact absurd ‹_› h
  · exact .refuse .unknown

end

theorem Decision.Answered.reply {s : State} {d : Decision} (h : d.Answered s) :
    s.SameResponder d.state ∧ ∃ st results, d.reply = some (st, results)
      ∧ (2 ≤ (statusCode st).toNat → d.state = s) := by
  cases h with
  | refuse st => exact ⟨.refl s, st, [], rfl, fun _ => rfl⟩
  | refuseWith st results => exact ⟨.refl s, st, results, rfl, fun _ => rfl⟩
  | carry st results hstatus hsame => exact ⟨hsame, st, results, rfl, fun h => absurd hstatus (Nat.not_lt.mpr h)⟩

/-- A status of RESTART of 2 or more leaves the state. -/
theorem decideRestart_refused {a : Asked} {s : State} {st : Status} {results : List Byte}
    (hreply : (decideRestart a s).reply = some (st, results)) (hstatus : 2 ≤ (statusCode st).toNat) :
    (decideRestart a s).state = s := by
  unfold decideRestart at hreply ⊢
  generalize decodeByteArg a.args = parsed at hreply ⊢
  cases parsed with
  | none => rfl
  | some force =>
    simp only [withArgs_some] at hreply ⊢
    split_ifs at hreply ⊢
    · rfl
    · rfl
    · rfl
    · cases hreply
      exact absurd hstatus (by decide)

/-- A refusal of any kind leaves the state. -/
theorem decisionOf_refused {kind : Byte} {a : Asked} {s : State} {st : Status} {results : List Byte}
    (hreply : (decisionOf kind a s).reply = some (st, results)) (hstatus : 2 ≤ (statusCode st).toNat) :
    (decisionOf kind a s).state = s := by
  by_cases hkind : kind.toNat = 0x14
  · have hrestart : decisionOf kind = decideRestart := by
      unfold decisionOf
      rw [hkind]
      rfl
    rw [hrestart] at hreply ⊢
    exact decideRestart_refused hreply hstatus
  · obtain ⟨-, st', results', hreply', hsame⟩ := (decisionOf_answered a s hkind).reply
    cases hreply.symm.trans hreply'
    exact hsame hstatus

/-! ### The statements -/

/-- An answered request, by what its payload holds of kind and tag. -/
theorem exec_of_answers {c : Instr} {src : Byte} {payload : List Byte} {s : State} (hasks : asks c = some (src, payload))
    (ha : s.Answers src payload) :
    (payload.length < 3 ∧ exec c s = .next ((s.asked src payload).replying src
        [payload.getD 0 0, payload.getD 1 0, 0, 4]))
      ∨ ∃ kind hi lo args, payload = kind :: hi :: lo :: args ∧
        exec c s = .next ((decisionOf kind { src, tagHi := hi, tagLo := lo, args } (s.asked src payload)).deliver kind
          { src, tagHi := hi, tagLo := lo, args }) := by
  rw [decodingStepsOfARequest.2 c s src payload hasks]
  by_cases hshort : payload.length < 3
  · exact .inl ⟨hshort, (decodingStepsOfARequest.1 s src payload ha).1 hshort⟩
  · match payload, hshort, ha with
    | kind :: hi :: lo :: args, _, ha =>
      exact .inr ⟨kind, hi, lo, args, rfl, by rw [exec_unknownRequest_cons, State.request_of_answers ha]⟩
    | [], h, _ | [_], h, _ | [_, _], h, _ => exact absurd (by simp) h

/-- Settles O42, by the decoding step at which the request is answered. -/
theorem answeredRequestGetsOneReplyAndSetsTheController : Obligations.AnsweredRequestGetsOneReplyAndSetsTheController := by
  intro c src payload s hasks ha hkind
  rcases exec_of_answers hasks ha with ⟨hshort, hexec⟩ | ⟨kind, hi, lo, args, rfl, hexec⟩
  · have htag : payload.getD 2 0 = 0 := by rw [List.getD_eq_default _ _ (by omega)]
    exact ⟨_, .badArg, [], hexec, rfl, rfl, by rw [htag]; rfl⟩
  · have hrestart : kind.toNat ≠ 0x14 := fun h =>
      hkind (congrArg some (BitVec.eq_of_toNat_eq (h : kind.toNat = (0x14 : Byte).toNat)))
    obtain ⟨⟨hcontroller, hwaiting, hreplies⟩, st, results, hreply, -⟩ :=
      (decisionOf_answered { src, tagHi := hi, tagLo := lo, args } (s.asked src (kind :: hi :: lo :: args)) hrestart).reply
    refine ⟨_, st, results, hexec, ?_, ?_, ?_⟩ <;> unfold Decision.deliver <;> rw [hreply]
    · exact hcontroller
    · exact hwaiting
    · exact congrArg (· ++ _) hreplies

/-- Settles O43: the reply at the tail is the decision's own, and a refusal's state is that of the request asked. -/
theorem refusedRequestChangesNothing : Obligations.RefusedRequestChangesNothing := by
  intro c src payload s t r hasks ha hexec hreplies hstatus
  rcases exec_of_answers hasks ha with ⟨-, hanswer⟩ | ⟨kind, hi, lo, args, rfl, hanswer⟩ <;>
    cases hexec.symm.trans hanswer
  · obtain ⟨-, hr⟩ := List.append_inj' hreplies rfl
    cases hr
    rfl
  · set a : Asked := { src, tagHi := hi, tagLo := lo, args }
    set u := s.asked src (kind :: hi :: lo :: args)
    obtain ⟨-, hkept⟩ := (decision_cases (decisionOf_mem kind) a u).straps_replies
    unfold Decision.deliver at hreplies ⊢
    cases hreply : (decisionOf kind a u).reply with
    | none =>
      rw [hreply] at hreplies
      have hlength := congrArg List.length hreplies
      dsimp only at hlength
      rcases hkept with e | e <;> rw [e] at hlength <;> simp [u] at hlength
    | some p =>
      obtain ⟨st, results⟩ := p
      rw [hreply] at hreplies
      obtain ⟨-, hr⟩ := List.append_inj' hreplies rfl
      cases hr
      dsimp only
      rw [decisionOf_refused hreply hstatus]
      rfl

end Sys2Proof.Machine
end

section
/-! SUPPORT. The byte layouts read back (R189 to R193): numbers, request arguments, measurements, route entries, and O60. -/

namespace Sys2Proof.Machine

/-! ### Numbers (R189) -/

theorem be16_rd16 (hi lo : Byte) : be16 (rd16 hi lo) = [hi, lo] := by
  have hhi : BitVec.ofNat 8 (rd16 hi lo / 256) = hi := by
    refine BitVec.eq_of_toNat_eq ?_
    rw [rd16, BitVec.toNat_ofNat]
    omega
  have hlo : BitVec.ofNat 8 (rd16 hi lo) = lo := by
    refine BitVec.eq_of_toNat_eq ?_
    rw [rd16, BitVec.toNat_ofNat]
    omega
  rw [be16, hhi, hlo]

theorem be32_rd32 (b3 b2 b1 b0 : Byte) : be32 (rd32 b3 b2 b1 b0) = [b3, b2, b1, b0] := by
  have hlow : rd16 b1 b0 < 65536 := by unfold rd16; omega
  have hhigh : rd32 b3 b2 b1 b0 / 65536 = rd16 b3 b2 := by unfold rd32; omega
  have hbytes : be16 (rd32 b3 b2 b1 b0) = be16 (rd16 b1 b0) := by
    have hdiv : BitVec.ofNat 8 (rd32 b3 b2 b1 b0 / 256) = BitVec.ofNat 8 (rd16 b1 b0 / 256) := by
      refine BitVec.eq_of_toNat_eq ?_
      rw [BitVec.toNat_ofNat, BitVec.toNat_ofNat, rd32]
      omega
    have hmod : BitVec.ofNat 8 (rd32 b3 b2 b1 b0) = BitVec.ofNat 8 (rd16 b1 b0) := by
      refine BitVec.eq_of_toNat_eq ?_
      rw [BitVec.toNat_ofNat, BitVec.toNat_ofNat, rd32]
      omega
    rw [be16, be16, hdiv, hmod]
  rw [be32, hhigh, hbytes, be16_rd16, be16_rd16]
  rfl

/-- The two bytes of a number side by side are the number. -/
theorem ofNat_append_ofNat {n : Nat} (h : n < 65536) :
    BitVec.ofNat 8 (n / 256) ++ BitVec.ofNat 8 n = BitVec.ofNat 16 n := by
  refine BitVec.eq_of_toNat_eq ?_
  rw [BitVec.toNat_append, BitVec.toNat_ofNat, BitVec.toNat_ofNat, BitVec.toNat_ofNat, ← Nat.shiftLeft_add_eq_or_of_lt (by omega),
    Nat.shiftLeft_eq]
  omega

/-- A signed number is read back from its two's complement. -/
theorem rd16s_emod {x : Int} (hlow : -32768 ≤ x) (hhigh : x ≤ 32767) :
    rd16s (BitVec.ofNat 8 ((x.emod 65536).toNat / 256)) (BitVec.ofNat 8 (x.emod 65536).toNat) = x := by
  have hrange : (x.emod 65536).toNat < 65536 := by
    have := Int.emod_lt_of_pos x (by decide : (0 : Int) < 65536)
    have := Int.emod_nonneg x (by decide : (65536 : Int) ≠ 0)
    exact (Int.toNat_lt this).mpr (by assumption)
  unfold rd16s
  rw [ofNat_append_ofNat hrange, BitVec.toInt_ofNat']
  have hnonneg : 0 ≤ x.emod 65536 := Int.emod_nonneg x (by decide)
  rw [Int.toNat_of_nonneg hnonneg]
  show (x % 65536).bmod (2 ^ 16) = x
  rw [Int.bmod_def]
  split <;> omega

/-! ### Route entries (R191) -/

/-- The role byte of an entry, from the entry it names. -/
theorem routeBytes_of_routeEntryOf {a role : Byte} {e : RouteEntry} (h : routeEntryOf a role = some e) :
    routeBytes (some e) = [a, role] := by
  unfold routeEntryOf at h
  split_ifs at h with hhead hbad
  · split at h <;> cases h
    rename_i n hn
    rw [routeBytes_head, ← laneOf_eq_some hn, BitVec.ofNat_toNat, BitVec.setWidth_eq]
  · cases h
    have hrole : ∀ r : BitVec 8, ¬r.toNat < 128 → ¬(r.toNat = 128 ∨ 128 + 15 < r.toNat) →
        128#8 ||| (if r.getLsbD 0 then 1 else 0) ||| (if r.getLsbD 1 then 2 else 0) ||| (if r.getLsbD 2 then 4 else 0)
          ||| (if r.getLsbD 3 then 8 else 0) = r := by decide
    rw [routeBytes_isolation]
    exact congrArg (fun r => [a, r]) (hrole role hhead hbad)

/-! ### Measurements (R2, R190) -/

theorem readMeas_be {timestamp pressure gate : Nat} {force : Int} (flags pad : Byte) (htime : timestamp < 65536)
    (hpressure : pressure < 65536) (hgate : gate < 65536) (hlow : -32768 ≤ force) (hhigh : force ≤ 32767) :
    readMeas (be16 timestamp ++ be16s force ++ be16 pressure ++ be16 gate ++ [flags, pad]) =
      some { timestamp := BitVec.ofNat 16 timestamp, force, pressure := min 6000 pressure, gate := min 1000 gate,
             flags := { bellowsDown := flags.getLsbD 0, levelProbe := flags.getLsbD 1,
                        headFault := flags.getLsbD 2, gateMoving := flags.getLsbD 3 } } := by
  simp only [be16, be16s, List.cons_append, List.nil_append, readMeas, rd16s_emod hlow hhigh, rd16_be16 hpressure,
    rd16_be16 hgate, ofNat_append_ofNat htime, readSampleFlags]

/-- Settles O60: each layout is read back byte by byte, and the codes are those listed. -/
theorem layoutsAreReadBackWhole : Obligations.LayoutsAreReadBackWhole := by
  have hbyte : ∀ {n : Nat}, n < 256 → (BitVec.ofNat 8 n).toNat = n := fun h => by
    rw [BitVec.toNat_ofNat]
    exact Nat.mod_eq_of_lt h
  refine ⟨fun n rest h => ?byteArg, fun n rest h => ?tagArg, fun a rest h => ?routeSet,
    fun a rest h1 h2 h3 => ?paramSet, fun a rest h1 h2 h3 h4 h5 h6 => ?curveSet, fun a rest h1 h2 h3 h4 => ?bankRead,
    fun a rest h1 h2 => ?laneMode, fun a rest h1 h2 h3 h4 h5 h6 h7 h8 => ?orderPost, fun a rest h1 h2 => ?recordTake,
    fun a rest h1 h2 => ?scaleResult, fun a rest h => ?countersRead, fun t p g x flags pad h1 h2 h3 h4 h5 => ?measurement,
    fun a role e h => routeBytes_of_routeEntryOf h, fun b3 b2 b1 b0 => ⟨?number, be32_rd32 b3 b2 b1 b0, be16_rd16 b1 b0⟩,
    rfl, rfl, rfl, rfl, rfl, rfl, rfl⟩
  case byteArg => exact congrArg some (hbyte h)
  case tagArg => exact congrArg some (rd16_be16 h)
  case routeSet => simp only [encodeRouteSet, List.cons_append, decodeRouteSet, hbyte h]
  case paramSet =>
    simp only [encodeParamSet, be32, be16, List.cons_append, List.nil_append, decodeParamSet, hbyte h1, hbyte h2, rd32_be32 h3]
  case curveSet =>
    simp only [encodeCurveSet, be32, be16, List.cons_append, List.nil_append, decodeCurveSet, hbyte h1, hbyte h2, hbyte h3,
      hbyte h4, rd16_be16 h5, rd32_be32 h6]
  case bankRead => simp only [encodeBankRead, List.cons_append, decodeBankRead, hbyte h1, hbyte h2, hbyte h3, hbyte h4]
  case laneMode => simp only [encodeLaneMode, List.cons_append, decodeLaneMode, hbyte h1, hbyte h2]
  case orderPost => exact decodeOrderPost_encodeOrderPost h1 h2 h3 h4 h5 h6 h7 h8 rest
  case recordTake =>
    simp only [encodeRecordTake, be16, List.cons_append, List.nil_append, decodeRecordTake, hbyte h1, rd16_be16 h2]
  case scaleResult =>
    simp only [encodeScaleResult, be32, be16, List.cons_append, List.nil_append, decodeScaleResult, rd16_be16 h1, rd32_be32 h2]
  case countersRead => simp only [encodeCountersRead, List.cons_append, decodeCountersRead, hbyte h]
  case measurement => exact readMeas_be flags pad h1 h2 h3 h4 h5
  case number =>
    unfold rd32 rd16
    ring

end Sys2Proof.Machine
end

section
/-! SUPPORT. ROUTE_SET and ROUTE_CLEAR (R152 to R154): the first conflicting entry of a route, and O46. -/

namespace Sys2Proof.Machine

/-! ### The first conflict -/

/-- The used entries stand in the order of their indices. -/
theorem State.usedRoutes_sorted (s : State) : s.usedRoutes.Pairwise fun x y => x.1 < y.1 := by
  unfold State.usedRoutes
  refine List.Pairwise.filterMap (R := fun x y => x.2 < y.2) _ ?_ ?_
  · intro x y hlt a ha b hb
    obtain ⟨_, -, rfl⟩ := Option.map_eq_some_iff.mp ha
    obtain ⟨_, -, rfl⟩ := Option.map_eq_some_iff.mp hb
    exact hlt
  · refine List.pairwise_map.mp ?_
    rw [List.zipIdx_map_snd]
    exact List.pairwise_lt_range'

theorem State.routeConflict_of_free {s : State} {i : Nat} {p : RouteEntry → Bool}
    (h : ∀ k x, k ≠ i → s.routeAt k = some x → p x = false) : s.routeConflict i p = none := by
  unfold State.routeConflict
  rw [Option.map_eq_none_iff, List.find?_eq_none]
  rintro ⟨k, x⟩ hmem
  by_cases hk : k = i
  · simp [hk]
  · simp [h k x hk (State.mem_usedRoutes.mp hmem)]

theorem State.routeConflict_of_first {s : State} {i j : Nat} {p : RouteEntry → Bool} {o : RouteEntry} (hj : j ≠ i)
    (ho : s.routeAt j = some o) (hp : p o = true)
    (hfirst : ∀ k x, k < j → k ≠ i → s.routeAt k = some x → p x = false) : s.routeConflict i p = some j := by
  have hmem : (j, o) ∈ s.usedRoutes := State.mem_usedRoutes.mpr ho
  obtain ⟨before, after, hsplit⟩ := List.append_of_mem hmem
  have hfind : (s.usedRoutes.find? fun e => e.1 != i && p e.2) = some (j, o) := by
    refine List.find?_eq_some_iff_append.mpr ⟨by simp [hj, hp], before, after, hsplit, ?_⟩
    rintro ⟨k, x⟩ hkx
    have hsorted := s.usedRoutes_sorted
    rw [hsplit] at hsorted
    have hlt : k < j := (List.pairwise_append.mp hsorted).2.2 (k, x) hkx (j, o) List.mem_cons_self
    have hroute : s.routeAt k = some x :=
      State.mem_usedRoutes.mp (by rw [hsplit]; exact List.mem_append_left _ hkx)
    by_cases hk : k = i
    · simp [hk]
    · simp [hfirst k x hlt hk hroute]
  unfold State.routeConflict
  rw [hfind]
  rfl

/-! ### ROUTE_SET decided (R152) -/

theorem State.headInService_iff {s : State} {e : Option RouteEntry} :
    s.headInService e = true ↔ ∃ (b : Byte) (n : LaneId), e = some (.head b n) ∧ (s.lane n).seq.mode ≠ .outOfService := by
  rcases e with _ | ⟨b, n⟩ | ⟨b, ls⟩ <;> simp [State.headInService]

theorem State.decideRoute_in_service {s : State} {i : Nat} {e : RouteEntry}
    (h : s.headInService (s.routeAt i) = true ∨ s.headInService (some e) = true) : s.decideRoute i e = refuse s .state := by
  unfold State.decideRoute
  rw [if_pos (Bool.or_eq_true_iff.mpr h)]

/-- The three tests of R152 steps 3 to 5, in their order. -/
def routeTests (e : RouteEntry) : List (RouteEntry → Bool) :=
  [fun o => routeAddress o == routeAddress e, sameHead e, sharedIsolation e]

/-- The first test that an entry fails, and the first index at which it does. -/
theorem State.decideRoute_conflict {s : State} {i : Nat} {e : RouteEntry} (hold : s.headInService (s.routeAt i) = false)
    (hnew : s.headInService (some e) = false) {m : Nat} {test : RouteEntry → Bool} (htest : (routeTests e)[m]? = some test)
    (hearlier : ∀ l other, l < m → (routeTests e)[l]? = some other →
      ∀ k x, k ≠ i → s.routeAt k = some x → other x = false) {j : Nat} {o : RouteEntry} (hj : j ≠ i)
    (ho : s.routeAt j = some o) (hp : test o = true)
    (hfirst : ∀ k x, k < j → k ≠ i → s.routeAt k = some x → test x = false) :
    s.decideRoute i e = refuseWith s .duplicate [BitVec.ofNat 8 (3 + m), BitVec.ofNat 8 j] := by
  have hconflict : s.routeConflict i test = some j := State.routeConflict_of_first hj ho hp hfirst
  have hfree : ∀ l other, l < m → (routeTests e)[l]? = some other → s.routeConflict i other = none :=
    fun l other hl hother => State.routeConflict_of_free (hearlier l other hl hother)
  unfold State.decideRoute
  rw [hold, hnew]
  match m, htest, hfree with
  | 0, htest, _ =>
    cases htest
    rw [hconflict]
    rfl
  | 1, htest, hfree =>
    cases htest
    rw [hfree 0 _ (by decide) rfl, hconflict]
    rfl
  | 2, htest, hfree =>
    cases htest
    rw [hfree 0 _ (by decide) rfl, hfree 1 _ (by decide) rfl, hconflict]
    rfl

theorem State.decideRoute_free {s : State} {i : Nat} {e : RouteEntry} (hold : s.headInService (s.routeAt i) = false)
    (hnew : s.headInService (some e) = false)
    (hfree : ∀ j o, j ≠ i → s.routeAt j = some o →
      routeAddress o ≠ routeAddress e ∧ sameHead e o = false ∧ sharedIsolation e o = false) :
    s.decideRoute i e = accept (s.putRoute i (some e)) (BitVec.ofNat 8 i :: routeBytes (some e)) := by
  unfold State.decideRoute
  rw [hold, hnew, State.routeConflict_of_free (p := fun o => routeAddress o == routeAddress e) fun k x hk hx =>
      beq_false_of_ne (hfree k x hk hx).1,
    State.routeConflict_of_free (p := sameHead e) fun k x hk hx => (hfree k x hk hx).2.1,
    State.routeConflict_of_free (p := sharedIsolation e) fun k x hk hx => (hfree k x hk hx).2.2]
  rfl

theorem decideRouteSet_of {s : State} {i a role : Byte} {e : RouteEntry} (hi : i.toNat ≤ 15) (hlow : 1 ≤ a.toNat)
    (hhigh : a.toNat ≤ 126) (hown : a ≠ s.address) (he : routeEntryOf a role = some e) (src hi' lo : Byte) (rest : List Byte) :
    decideRouteSet { src, tagHi := hi', tagLo := lo, args := i :: a :: role :: rest } s = s.decideRoute i.toNat e := by
  show (if 15 < i.toNat ∨ a.toNat = 0 ∨ 126 < a.toNat ∨ a = s.address then refuse s .badArg
    else match routeEntryOf a role with
      | some e => s.decideRoute i.toNat e
      | none => refuse s .badArg) = _
  rw [if_neg (by simp only [not_or]; exact ⟨by omega, by omega, by omega, hown⟩), he]

theorem decideRouteSet_bad {s : State} {i a role : Byte}
    (h : 15 < i.toNat ∨ a.toNat = 0 ∨ 126 < a.toNat ∨ a = s.address ∨ routeEntryOf a role = none) (src hi' lo : Byte)
    (rest : List Byte) :
    decideRouteSet { src, tagHi := hi', tagLo := lo, args := i :: a :: role :: rest } s = refuse s .badArg := by
  show (if 15 < i.toNat ∨ a.toNat = 0 ∨ 126 < a.toNat ∨ a = s.address then refuse s .badArg
    else match routeEntryOf a role with
      | some e => s.decideRoute i.toNat e
      | none => refuse s .badArg) = _
  split_ifs with hbad
  · rfl
  · have hnone : routeEntryOf a role = none := by tauto
    rw [hnone]

theorem exec_routeSet {s : State} {src hi lo : Byte} {args : List Byte} (h : s.Answers src (0x02 :: hi :: lo :: args)) :
    exec (.routeSet src (hi :: lo :: args)) s =
      .next ((decideRouteSet { src, tagHi := hi, tagLo := lo, args } (s.asked src (0x02 :: hi :: lo :: args))).deliver
        0x02 { src, tagHi := hi, tagLo := lo, args }) :=
  congrArg Host.Outcome.next (State.request_of_answers h decideRouteSet)

theorem exec_routeClear {s : State} {src hi lo : Byte} {args : List Byte} (h : s.Answers src (0x03 :: hi :: lo :: args)) :
    exec (.routeClear src (hi :: lo :: args)) s =
      .next ((decideRouteClear { src, tagHi := hi, tagLo := lo, args } (s.asked src (0x03 :: hi :: lo :: args))).deliver
        0x03 { src, tagHi := hi, tagLo := lo, args }) :=
  congrArg Host.Outcome.next (State.request_of_answers h decideRouteClear)

theorem decideRouteClear_cons (s : State) (src hi lo i : Byte) (rest : List Byte) :
    decideRouteClear { src, tagHi := hi, tagLo := lo, args := i :: rest } s =
      if 16 ≤ i.toNat then refuse s .badArg
      else if s.headInService (s.routeAt i.toNat) then refuse s .state
      else accept (s.putRoute i.toNat none) [BitVec.ofNat 8 i.toNat] := rfl

/-- Settles O46, by the steps of R152 in their order. -/
theorem routeSetAndRouteClearWriteTheTable : Obligations.RouteSetAndRouteClearWriteTheTable := by
  intro s src hi lo i a role rest headInService set clear answersSet
  refine ⟨?entry, fun ha hbad => ?bad, fun ha => ?clear⟩
  case entry =>
    intro e ha hindex hlow hhigh hown he tests
    have haddress : routeAddress e = a :=
      (routeEntryOf_sound he (by omega) (by omega) hown).2
    have hexec := (exec_routeSet ha).trans
      (congrArg (fun d : Decision => Host.Outcome.next (d.deliver 0x02 _))
        (decideRouteSet_of (s := set) hindex hlow hhigh hown he src hi lo rest))
    have htests : tests = routeTests e := by simp only [tests, routeTests, haddress]
    refine ⟨fun hservice => ?inService, fun hold hnew => ⟨?conflict, fun hfree => ?free⟩⟩
    case inService =>
      rw [hexec, State.decideRoute_in_service (s := set) (hservice.imp State.headInService_iff.mpr State.headInService_iff.mpr)]
      rfl
    case conflict =>
      intro m test htest hearlier j o hj ho hp hfirst
      rw [htests] at htest hearlier
      rw [hexec, State.decideRoute_conflict (s := set) (Bool.eq_false_iff.mpr (mt State.headInService_iff.mp hold))
        (Bool.eq_false_iff.mpr (mt State.headInService_iff.mp hnew)) htest hearlier hj ho hp hfirst]
      rfl
    case free =>
      rw [hexec, State.decideRoute_free (s := set) (Bool.eq_false_iff.mpr (mt State.headInService_iff.mp hold))
        (Bool.eq_false_iff.mpr (mt State.headInService_iff.mp hnew)) (by rw [haddress]; exact hfree),
        routeBytes_of_routeEntryOf he, BitVec.ofNat_toNat, BitVec.setWidth_eq]
      rfl
  case bad =>
    rw [exec_routeSet ha, decideRouteSet_bad (s := set) hbad]
    rfl
  case clear =>
    rw [exec_routeClear ha, decideRouteClear_cons, BitVec.ofNat_toNat, BitVec.setWidth_eq]
    show Host.Outcome.next (Decision.deliver (if 16 ≤ i.toNat then refuse clear .badArg
      else if s.headInService (s.routeAt i.toNat) then refuse clear .state
      else accept (clear.putRoute i.toNat none) [i]) 0x03 _) = _
    split_ifs <;> rfl

end Sys2Proof.Machine
end

section
/-! SUPPORT. CURVE_SET, BANK_READ, RECORD_TAKE and COUNTERS_READ (R51, R56, R168, R183): O48, O56 and O58. -/

namespace Sys2Proof.Machine

/-- The byte of a number is the number's byte. -/
@[simp] theorem ofNat_toNat_byte (b : Byte) : BitVec.ofNat 8 b.toNat = b := by
  rw [BitVec.ofNat_toNat, BitVec.setWidth_eq]

theorem withLane_above {s : State} {k : Nat} (h : 3 < k) (f : LaneId → Decision) : withLane s k f = refuse s .badArg := by
  unfold withLane
  rw [laneOf_above h]

theorem regimeOf_above {k : Nat} (h : 2 < k) : regimeOf k = none := by
  obtain ⟨j, rfl⟩ := Nat.exists_eq_add_of_le' h
  rfl

theorem regimeOf_eq_some {k : Nat} {g : Regime} (h : regimeOf k = some g) : k < 3 ∧ g.code = BitVec.ofNat 8 k := by
  unfold regimeOf at h
  split at h <;> cases h <;> exact ⟨by decide, rfl⟩

theorem flagBit_zero (b : Bool) : flagBit 0 b = if b then 1 else 0 := rfl

/-! ### CURVE_SET (R51) -/

theorem exec_curveSet {s : State} {src hi lo : Byte} {args : List Byte} (h : s.Answers src (0x06 :: hi :: lo :: args)) :
    exec (.curveSet src (hi :: lo :: args)) s =
      .next ((decideCurveSet { src, tagHi := hi, tagLo := lo, args } (s.asked src (0x06 :: hi :: lo :: args))).deliver
        0x06 { src, tagHi := hi, tagLo := lo, args }) :=
  congrArg Host.Outcome.next (State.request_of_answers h decideCurveSet)

/-- CURVE_SET on a lane and a regime. -/
theorem decideCurveSet_of {s : State} {lane r : Byte} {n : LaneId} {g : Regime} (hn : laneOf lane.toNat = some n)
    (hg : regimeOf r.toNat = some g) (src hi lo count index f1 f0 q3 q2 q1 q0 : Byte) (rest : List Byte) :
    decideCurveSet { src, tagHi := hi, tagLo := lo,
                     args := lane :: r :: count :: index :: f1 :: f0 :: q3 :: q2 :: q1 :: q0 :: rest } s =
      if count.toNat = 0 ∨ 16 < count.toNat ∨ 16 ≤ index.toNat ∨ 32767 < rd16 f1 f0 ∨ 200000 < rd32 q3 q2 q1 q0 then
        refuse s .badArg
      else if (s.lane n).flow.commitPending then refuse s .busy
      else
        accept (s.onStaged n fun b =>
            b.writeSlot g count.toNat index.toNat { force := rd16 f1 f0, flow := rd32 q3 q2 q1 q0 })
          [g.code, BitVec.ofNat 8 index.toNat, BitVec.ofNat 8 count.toNat] := by
  refine (withLane_of hn _).trans ?_
  dsimp only
  rw [hg]

theorem decideCurveSet_above {s : State} {lane r : Byte} (h : 3 < lane.toNat ∨ 2 < r.toNat)
    (src hi lo count index f1 f0 q3 q2 q1 q0 : Byte) (rest : List Byte) :
    decideCurveSet { src, tagHi := hi, tagLo := lo,
                     args := lane :: r :: count :: index :: f1 :: f0 :: q3 :: q2 :: q1 :: q0 :: rest } s =
      refuse s .badArg := by
  by_cases hlane : 3 < lane.toNat
  · exact withLane_above hlane _
  · show withLane s lane.toNat _ = _
    unfold withLane
    split
    · dsimp only
      rw [regimeOf_above (h.resolve_left hlane)]
    · rfl

/-! ### BANK_READ (R56) -/

theorem exec_bankRead {s : State} {src hi lo : Byte} {args : List Byte} (h : s.Answers src (0x08 :: hi :: lo :: args)) :
    exec (.bankRead src (hi :: lo :: args)) s =
      .next ((decideBankRead { src, tagHi := hi, tagLo := lo, args } (s.asked src (0x08 :: hi :: lo :: args))).deliver
        0x08 { src, tagHi := hi, tagLo := lo, args }) :=
  congrArg Host.Outcome.next (State.request_of_answers h decideBankRead)

/-- BANK_READ on a lane, by the part it finds. -/
theorem decideBankRead_of {s : State} {lane : Byte} {n : LaneId} (hn : laneOf lane.toNat = some n)
    (src hi lo b part first : Byte) (rest : List Byte) :
    decideBankRead { src, tagHi := hi, tagLo := lo, args := lane :: b :: part :: first :: rest } s =
      ((bankOf (s.lane n) b.toNat).bind fun bank => bankPart bank part.toNat first.toNat).elim (refuse s .badArg)
        fun bytes => accept s ([flagBit 0 (s.lane n).flow.commitPending, b, part, first] ++ bytes) := by
  refine (withLane_of hn _).trans ?_
  simp only [ofNat_toNat_byte]
  cases (bankOf (s.lane n) b.toNat).bind fun bank => bankPart bank part.toNat first.toNat <;> rfl

theorem bankOf_le_one (l : Lane) {b : Nat} (h : b ≤ 1) :
    bankOf l b = some (if b = 0 then l.flow.active else l.flow.staged) := by
  match b, h with
  | 0, _ => rfl
  | 1, _ => rfl

theorem bankOf_above (l : Lane) {b : Nat} (h : 1 < b) : bankOf l b = none := by
  obtain ⟨j, rfl⟩ := Nat.exists_eq_add_of_le' h
  rfl

theorem bankPart_curve {part first : Nat} {g : Regime} (hg : regimeOf part = some g) (hfirst : first < 16) (b : Bank) :
    bankPart b part first = some (curvePart (b.curves.get g) first) := by
  unfold bankPart
  rw [hg]
  exact if_neg (Nat.not_le.mpr hfirst)

theorem bankPart_params {first : Nat} (hfirst : first < 28) (b : Bank) :
    bankPart b 3 first = some (paramPart b.params first) :=
  if_pos ⟨rfl, hfirst⟩

theorem bankPart_out_of_range {part first : Nat} (h : 3 < part ∨ (part < 3 ∧ 15 < first) ∨ (part = 3 ∧ 27 < first)) (b : Bank) :
    bankPart b part first = none := by
  unfold bankPart
  split
  · rename_i g hg
    exact if_pos (by have := (regimeOf_eq_some hg).1; omega)
  · exact if_neg (by omega)

/-- Settles O48, by the lane, the regime and the ranges of CURVE_SET, and by the bank and the part of BANK_READ. -/
theorem curveSetWritesOneSlotAndBankReadReadsIt : Obligations.CurveSetWritesOneSlotAndBankReadReadsIt := by
  refine ⟨?curveBad, ?curve, ?bankBad, ?bank⟩
  case curveBad =>
    intro s src hi lo lane r count index f1 f0 q3 q2 q1 q0 rest ha habove body
    rw [exec_curveSet ha, decideCurveSet_above habove]
    rfl
  case curve =>
    intro s src hi lo lane r count index f1 f0 q3 q2 q1 q0 rest n g ha hn hg body t l written
    rw [exec_curveSet ha, decideCurveSet_of hn hg]
    simp only [ofNat_toNat_byte, (regimeOf_eq_some hg).2]
    show Host.Outcome.next (Decision.deliver (if count.toNat = 0 ∨ 16 < count.toNat ∨ 15 < index.toNat ∨ 32767 < rd16 f1 f0
        ∨ 200000 < rd32 q3 q2 q1 q0 then refuse t .badArg
      else if l.flow.commitPending then refuse t .busy
      else accept (t.onStaged n fun b =>
        b.writeSlot g count.toNat index.toNat { force := rd16 f1 f0, flow := rd32 q3 q2 q1 q0 }) [r, index, count]) 0x06 _) = _
    split_ifs <;> rfl
  case bankBad =>
    intro s src hi lo lane b part first rest ha habove body
    rw [exec_bankRead ha]
    exact congrArg (fun d : Decision => Host.Outcome.next (d.deliver 0x08 _)) (withLane_above habove _)
  case bank =>
    intro s src hi lo lane b part first rest n ha hn body t l bank pending
    have hbank : b.toNat ≤ 1 → bankOf (t.lane n) b.toNat = some bank := bankOf_le_one (t.lane n)
    rw [exec_bankRead ha, decideBankRead_of hn]
    refine ⟨fun hb g hg hfirst => ?_, fun hb hpart hfirst => ?_, fun hbad => ?_⟩
    · rw [hbank hb, Option.bind_some, bankPart_curve hg hfirst]
      rfl
    · subst hpart
      rw [hbank hb, Option.bind_some, show (3 : Byte).toNat = 3 from rfl, bankPart_params hfirst]
      rfl
    · have hnone : ((bankOf (t.lane n) b.toNat).bind fun x => bankPart x part.toNat first.toNat) = none := by
        by_cases hb : 1 < b.toNat
        · rw [bankOf_above _ hb]
          rfl
        · rw [hbank (Nat.not_lt.mp hb), Option.bind_some]
          refine bankPart_out_of_range ((hbad.resolve_left hb).imp_right (Or.imp_right fun h => ?_)) _
          exact ⟨congrArg BitVec.toNat h.1, h.2⟩
      rw [hnone]
      rfl

/-! ### RECORD_TAKE (R168) -/

theorem exec_recordTake {s : State} {src hi lo : Byte} {args : List Byte} (h : s.Answers src (0x0F :: hi :: lo :: args)) :
    exec (.recordTake src (hi :: lo :: args)) s =
      .next ((decideRecordTake { src, tagHi := hi, tagLo := lo, args } (s.asked src (0x0F :: hi :: lo :: args))).deliver
        0x0F { src, tagHi := hi, tagLo := lo, args }) :=
  congrArg Host.Outcome.next (State.request_of_answers h decideRecordTake)

theorem decideRecordTake_of_part_above {s : State} {part : Byte} (h : 4 < part.toNat) (src hi lo t1 t0 : Byte)
    (rest : List Byte) :
    decideRecordTake { src, tagHi := hi, tagLo := lo, args := part :: t1 :: t0 :: rest } s = refuse s .badArg :=
  if_pos h

theorem decideRecordTake_of_empty {s : State} {part : Byte} (h : part.toNat ≤ 4) (hempty : s.records = [])
    (src hi lo t1 t0 : Byte) (rest : List Byte) :
    decideRecordTake { src, tagHi := hi, tagLo := lo, args := part :: t1 :: t0 :: rest } s = refuse s .empty := by
  refine (if_neg (Nat.not_lt.mpr h)).trans ?_
  rw [hempty]

/-- RECORD_TAKE where a record is held. -/
theorem decideRecordTake_of_oldest {s : State} {part : Byte} {r : Record} {more : List Record} (h : part.toNat ≤ 4)
    (hold : s.records = r :: more) (src hi lo t1 t0 : Byte) (rest : List Byte) :
    decideRecordTake { src, tagHi := hi, tagLo := lo, args := part :: t1 :: t0 :: rest } s =
      if rd16 t1 t0 ≠ 0 ∧ rd16 t1 t0 ≠ r.tag then refuse s .notFound
      else if r.results.length < part.toNat then refuse s .badArg
      else
        accept (s.dropRecord (part.toNat == r.results.length))
          ([part, flagBit 0 (part.toNat == r.results.length)]
            ++ (s.dropRecord (part.toNat == r.results.length)).storeCounts ++ recordPart r part.toNat) := by
  refine (if_neg (Nat.not_lt.mpr h)).trans ?_
  rw [hold]
  simp only [ofNat_toNat_byte]

theorem State.dropRecord_of_cons {s : State} {r : Record} {more : List Record} (h : s.records = r :: more) (last : Bool) :
    s.dropRecord last = { s with records := if last then more else r :: more } := by
  cases last with
  | true => exact congrArg (fun rs => { s with records := List.drop 1 rs }) h
  | false => exact congrArg (fun rs => { s with records := rs }) h

/-- Settles O56, by RECORD_TAKE's checks in their order. -/
theorem recordTakeReadsAndRemovesTheOldestRecord : Obligations.RecordTakeReadsAndRemovesTheOldestRecord := by
  intro s src hi lo part t1 t0 rest ha body a refused
  refine ⟨fun hpart => ?_, fun hpart hempty => ?_, fun r more hpart hold => ⟨fun hsome htag => ?_, fun htag => ⟨fun hlen => ?_, ?_⟩⟩⟩
  case refine_5 =>
    intro hlen last left chars content
    have hold' : a.records = r :: more := hold
    have hlast : (part.toNat == r.results.length) = last := beq_eq_decide _ _
    have hleft : a.dropRecord last = { a with records := left } := State.dropRecord_of_cons hold' last
    have hcontent : recordPart r part.toNat = content part.toNat := by
      generalize part.toNat = k
      cases k with
      | zero => simp [recordPart, recordPart0, vehicleBytes, content, chars]
      | succ i =>
        simp only [recordPart, content]
        cases r.results[i]? <;> rfl
    rw [exec_recordTake ha, decideRecordTake_of_oldest hpart hold', if_neg (by tauto), if_neg (Nat.not_lt.mpr hlen),
      hlast, hleft, hcontent, flagBit_zero]
    rfl
  all_goals
    show exec (.recordTake src body) s = _
    rw [exec_recordTake ha]
  · rw [decideRecordTake_of_part_above hpart]
    rfl
  · rw [decideRecordTake_of_empty (s := a) hpart hempty]
    rfl
  · rw [decideRecordTake_of_oldest (s := a) hpart hold, if_pos ⟨hsome, htag⟩]
    rfl
  · rw [decideRecordTake_of_oldest (s := a) hpart hold, if_neg (by tauto), if_pos hlen]
    rfl

/-! ### COUNTERS_READ (R183) -/

theorem exec_countersRead {s : State} {src hi lo : Byte} {args : List Byte} (h : s.Answers src (0x13 :: hi :: lo :: args)) :
    exec (.countersRead src (hi :: lo :: args)) s =
      .next ((decideCountersRead { src, tagHi := hi, tagLo := lo, args } (s.asked src (0x13 :: hi :: lo :: args))).deliver
        0x13 { src, tagHi := hi, tagLo := lo, args }) :=
  congrArg Host.Outcome.next (State.request_of_answers h decideCountersRead)

theorem counterGroup_above {k : Nat} (h : 5 < k) : counterGroup k = none := by
  obtain ⟨j, rfl⟩ := Nat.exists_eq_add_of_le' h
  rfl

theorem counterGroup_lane (n : LaneId) : counterGroup (laneNum n + 1) = some (.lane n) := by
  cases n <;> rfl

/-- COUNTERS_READ on a group. -/
theorem decideCountersRead_of {s : State} {group : Byte} {g : CounterGroup} (hg : counterGroup group.toNat = some g)
    (src hi lo clear : Byte) (rest : List Byte) :
    decideCountersRead { src, tagHi := hi, tagLo := lo, args := group :: clear :: rest } s =
      accept (if clearFlagOf clear then s.zeroCounters g else s) (group :: s.counterBytes g) := by
  unfold decideCountersRead
  refine (withArgs_some s _ _).trans ?_
  dsimp only
  rw [hg, ofNat_toNat_byte]

theorem decideCountersRead_above {s : State} {group : Byte} (h : 5 < group.toNat) (src hi lo clear : Byte)
    (rest : List Byte) :
    decideCountersRead { src, tagHi := hi, tagLo := lo, args := group :: clear :: rest } s = refuse s .badArg := by
  unfold decideCountersRead
  refine (withArgs_some s _ _).trans ?_
  dsimp only
  rw [counterGroup_above h]

/-- Settles O58, by the group; the clear flag is the one the model reads. -/
theorem countersReadReportsAndClears : Obligations.CountersReadReportsAndClears := by
  intro s src hi lo group clear rest ha body a port noPort link
  refine ⟨fun habove => ?_, clearFlagOf clear, fun h => if_pos h, ?set, ?ports, ?lane, ?unit⟩
  · rw [exec_countersRead ha, decideCountersRead_above habove]
    rfl
  case set =>
    rintro rfl
    rfl
  case ports =>
    rintro rfl
    rw [exec_countersRead ha, decideCountersRead_of (g := .ports) rfl]
    cases clearFlagOf clear <;> rfl
  case lane =>
    intro n hn l c
    rw [exec_countersRead ha, decideCountersRead_of (hn ▸ counterGroup_lane n)]
    cases clearFlagOf clear <;> rfl
  case unit =>
    rintro rfl
    rw [exec_countersRead ha, decideCountersRead_of (g := .unit) rfl]
    cases clearFlagOf clear <;> rfl

end Sys2Proof.Machine
end

section
/-! SUPPORT. LANE_MODE, FAULT_CLEAR and ORDER_CANCEL (R75, R88, R89, R111, R112): O50, O52 and O55. -/

namespace Sys2Proof.Machine

/-! ### LANE_MODE (R88, R89) -/

theorem exec_laneMode {s : State} {src hi lo : Byte} {args : List Byte} (h : s.Answers src (0x09 :: hi :: lo :: args)) :
    exec (.laneMode src (hi :: lo :: args)) s =
      .next ((decideLaneMode { src, tagHi := hi, tagLo := lo, args } (s.asked src (0x09 :: hi :: lo :: args))).deliver
        0x09 { src, tagHi := hi, tagLo := lo, args }) :=
  congrArg Host.Outcome.next (State.request_of_answers h decideLaneMode)

theorem modeOf_above {k : Nat} (h : 2 < k) : modeOf k = none := by
  obtain ⟨j, rfl⟩ := Nat.exists_eq_add_of_le' h
  rfl

theorem modeOf_code {b : Byte} {m : Mode} (h : modeOf b.toNat = some m) : m.code = b := by
  rw [← ofNat_toNat_byte b]
  generalize b.toNat = k at h
  unfold modeOf at h
  split at h <;> cases h <;> rfl

theorem decideLaneMode_above {s : State} {lane mode : Byte} (h : 3 < lane.toNat ∨ 2 < mode.toNat) (src hi lo : Byte)
    (rest : List Byte) :
    decideLaneMode { src, tagHi := hi, tagLo := lo, args := lane :: mode :: rest } s = refuse s .badArg := by
  by_cases hlane : 3 < lane.toNat
  · exact withLane_above hlane _
  · show withLane s lane.toNat _ = _
    unfold withLane
    split
    · dsimp only
      rw [modeOf_above (h.resolve_left hlane)]
    · rfl

/-- LANE_MODE on a lane and a mode. -/
theorem decideLaneMode_of {s : State} {lane mode : Byte} {n : LaneId} {m : Mode} (hn : laneOf lane.toNat = some n)
    (hm : modeOf mode.toNat = some m) (src hi lo : Byte) (rest : List Byte) :
    decideLaneMode { src, tagHi := hi, tagLo := lo, args := lane :: mode :: rest } s =
      if m = (s.lane n).seq.mode then accept s (s.modeBytes n)
      else (s.changeMode n m).elim (refuse s .state) fun t => accept t (t.modeBytes n) := by
  refine (withLane_of hn _).trans ?_
  dsimp only
  rw [hm]
  dsimp only
  cases s.changeMode n m <;> rfl

/-- The mode and the state that LANE_MODE's reply carries. -/
theorem State.modeBytes_eq {s : State} {n : LaneId} {m : Mode} (h : (s.lane n).seq.mode = m) :
    s.modeBytes n = [m.code, (if m = .auto then (s.lane n).seq.state else .idle).code] := by
  unfold State.modeBytes
  rw [Lane.reportedState_eq, h]

theorem State.mayEnterService_iff (s : State) (n : LaneId) :
    s.mayEnterService n = true ↔ (s.lane n).flow.active.curvesValid = true ∧ s.headOf n ≠ none := by
  unfold State.mayEnterService
  rw [Bool.and_eq_true, Option.isSome_iff_ne_none]

theorem Lane.mayLeaveAuto_iff (l : Lane) :
    l.mayLeaveAuto = true ↔
      l.seq.state = .idle ∨ l.seq.state = .armed ∨ l.seq.state = .gangWait ∨ l.seq.state = .fault := by
  unfold Lane.mayLeaveAuto
  cases l.seq.state <;> simp

/-- A lane changes its mode where it may enter service and may leave AUTO. -/
theorem State.changeMode_isSome (s : State) (n : LaneId) (m : Mode) :
    (s.changeMode n m).isSome = true ↔
      ((s.lane n).seq.mode = .outOfService → s.mayEnterService n = true)
        ∧ ((s.lane n).seq.mode = .auto → (s.lane n).mayLeaveAuto = true) := by
  unfold State.changeMode
  cases (s.lane n).seq.mode with
  | outOfService => cases s.mayEnterService n <;> simp
  | manual => simp
  | auto => cases (s.lane n).mayLeaveAuto <;> simp

/-- Settles O50: a lane changes its mode just where it may (`State.changeMode_isSome`), and then as R88 and R89 say. -/
theorem laneModeChangesTheMode : Obligations.LaneModeChangesTheMode := by
  refine ⟨?above, ?lane⟩
  case above =>
    intro s src hi lo lane mode rest ha habove body
    rw [exec_laneMode ha, decideLaneMode_above habove]
    rfl
  case lane =>
    intro s src hi lo lane mode rest n m ha hn hm body a l mayEnter mayLeave
    have hsome := State.changeMode_isSome a n m
    rw [State.mayEnterService_iff, Lane.mayLeaveAuto_iff] at hsome
    rw [exec_laneMode ha, decideLaneMode_of (s := a) hn hm, ← modeOf_code hm]
    refine ⟨fun (hsame : m = (a.lane n).seq.mode) => ?_, fun (hother : m ≠ (a.lane n).seq.mode) hno => ?_,
      fun (hother : m ≠ (a.lane n).seq.mode) henter hleave => ?_⟩
    · rw [if_pos hsame, State.modeBytes_eq (s := a) hsame.symm]
      rfl
    · have hnone : a.changeMode n m = none := by
        rw [← Option.not_isSome_iff_eq_none, hsome]
        exact fun h => hno.elim (fun hout => hout.2 (h.1 hout.1)) fun hauto => hauto.2 (h.2 hauto.1)
      rw [if_neg hother, hnone]
      rfl
    · obtain ⟨t, ht⟩ := Option.isSome_iff_exists.mp (hsome.mpr ⟨henter, hleave⟩)
      have hmode := (State.changeMode_changesMode ht).mode
      refine ⟨t, State.changeMode_changesMode ht, hmode, ?_⟩
      rw [if_neg hother, ht, Option.elim_some, State.modeBytes_eq hmode]
      rfl

/-! ### FAULT_CLEAR (R111) -/

theorem exec_faultClear {s : State} {src hi lo : Byte} {args : List Byte} (h : s.Answers src (0x11 :: hi :: lo :: args)) :
    exec (.faultClear src (hi :: lo :: args)) s =
      .next ((decideFaultClear { src, tagHi := hi, tagLo := lo, args } (s.asked src (0x11 :: hi :: lo :: args))).deliver
        0x11 { src, tagHi := hi, tagLo := lo, args }) :=
  congrArg Host.Outcome.next (State.request_of_answers h decideFaultClear)

theorem decideFaultClear_of {s : State} {lane : Byte} {n : LaneId} (hn : laneOf lane.toNat = some n) (src hi lo : Byte)
    (rest : List Byte) :
    decideFaultClear { src, tagHi := hi, tagLo := lo, args := lane :: rest } s =
      if (s.lane n).mayClearFault then accept (s.enterIdle n) [((s.enterIdle n).lane n).reportedState.code]
      else refuse s .state :=
  withLaneArg_of hn rest _

theorem Lane.mayClearFault_iff (l : Lane) :
    l.mayClearFault = true ↔
      l.seq.mode = .auto ∧ l.seq.state = .fault ∧ l.seq.silentMark = false
        ∧ ∃ g, l.cond.lastGate = some g ∧ g ≤ l.params.closedBand := by
  unfold Lane.mayClearFault
  cases l.cond.lastGate <;> simp [and_assoc]

/-- Settles O52: where R111 allows it the lane enters IDLE, and stays in AUTO by it. -/
theorem faultClearReturnsTheLaneToIdle : Obligations.FaultClearReturnsTheLaneToIdle := by
  refine ⟨?above, ?lane⟩
  case above =>
    intro s src hi lo lane rest ha habove
    rw [exec_faultClear ha]
    exact congrArg (fun d : Decision => Host.Outcome.next (d.deliver 0x11 _)) (withLaneArg_above habove rest _)
  case lane =>
    intro s src hi lo lane rest n ha hn a l allowed
    have hmay : (a.lane n).mayClearFault = true ↔ allowed := Lane.mayClearFault_iff (a.lane n)
    rw [exec_faultClear ha, decideFaultClear_of (s := a) hn]
    refine ⟨fun hno => ?_, fun hyes => ⟨a.enterIdle n, State.enterIdle_entersIdle a n, ?_⟩⟩
    · rw [if_neg (hno ∘ hmay.mp)]
      rfl
    · have hmode : ((a.enterIdle n).lane n).seq.mode = .auto := (State.enterIdle_entersIdle a n).mode.trans hyes.1
      rw [if_pos (hmay.mpr hyes), Lane.reportedState_eq, if_pos hmode]
      rfl

/-! ### ORDER_CANCEL (R75, R112) -/

theorem exec_orderCancel {s : State} {src hi lo : Byte} {args : List Byte} (h : s.Answers src (0x0C :: hi :: lo :: args)) :
    exec (.orderCancel src (hi :: lo :: args)) s =
      .next ((decideOrderCancel { src, tagHi := hi, tagLo := lo, args } (s.asked src (0x0C :: hi :: lo :: args))).deliver
        0x0C { src, tagHi := hi, tagLo := lo, args }) :=
  congrArg Host.Outcome.next (State.request_of_answers h decideOrderCancel)

/-- The first of the lanes with a property is the lowest-numbered one. -/
theorem find?_allLanes_eq_some {p : LaneId → Bool} {n : LaneId} (hp : p n = true)
    (hlower : ∀ m, laneNum m < laneNum n → p m = false) : allLanes.find? p = some n := by
  have hsplit : ∃ before after, allLanes = before ++ n :: after ∧ ∀ m ∈ before, laneNum m < laneNum n := by
    cases n
    · exact ⟨[], _, rfl, by decide⟩
    · exact ⟨[.lane0], _, rfl, by decide⟩
    · exact ⟨[.lane0, .lane1], _, rfl, by decide⟩
    · exact ⟨[.lane0, .lane1, .lane2], _, rfl, by decide⟩
  obtain ⟨before, after, heq, hbefore⟩ := hsplit
  exact List.find?_eq_some_iff_append.mpr ⟨hp, before, after, heq, fun m hm => by rw [hlower m (hbefore m hm)]; rfl⟩

theorem State.laneOfTag_eq_some {s : State} {tag : Nat} {n : LaneId} (hn : ∃ o ∈ s.queue n, o.tag = tag)
    (hlower : ∀ m, laneNum m < laneNum n → ∀ o ∈ s.queue m, o.tag ≠ tag) : s.laneOfTag tag = some n :=
  find?_allLanes_eq_some (by simpa using hn) fun m hm => by simpa using hlower m hm

theorem State.laneOfTag_eq_none {s : State} {tag : Nat} (h : ∀ n, ∀ o ∈ s.queue n, o.tag ≠ tag) :
    s.laneOfTag tag = none :=
  List.find?_eq_none.mpr fun n _ => by simpa using h n

theorem decideOrderCancel_of_lane {s : State} {t1 t0 : Byte} {n : LaneId} (htag : rd16 t1 t0 ≠ 0)
    (hn : s.laneOfTag (rd16 t1 t0) = some n) (src hi lo : Byte) (rest : List Byte) :
    decideOrderCancel { src, tagHi := hi, tagLo := lo, args := t1 :: t0 :: rest } s = s.cancelIn n (rd16 t1 t0) := by
  refine (if_neg htag).trans ?_
  rw [hn]

theorem decideOrderCancel_of_none {s : State} {t1 t0 : Byte} (htag : rd16 t1 t0 ≠ 0)
    (hnone : s.laneOfTag (rd16 t1 t0) = none) (src hi lo : Byte) (rest : List Byte) :
    decideOrderCancel { src, tagHi := hi, tagLo := lo, args := t1 :: t0 :: rest } s = refuse s .notFound := by
  refine (if_neg htag).trans ?_
  rw [hnone]

/-- A cancel of an order that is not the active one removes it from the queue (R75). -/
theorem State.cancelIn_of_queued {s : State} {n : LaneId} {tag : Nat} (h : ∀ o, s.activeOrder n = some o → o.tag ≠ tag) :
    s.cancelIn n tag = cancelled (s.putQueue n ((s.queue n).eraseP fun o => o.tag == tag)) n .removed := by
  unfold State.cancelIn
  split
  · rename_i o ho
    exact if_neg (h o ho)
  · rfl

/-- A cancel of the active order is decided by the lane's state (R112). -/
theorem State.cancelIn_of_active {s t : State} {n : LaneId} {o : Order} {d : Disposition} (h : s.activeOrder n = some o)
    (hd : s.cancelActive n = some (t, d)) : s.cancelIn n o.tag = cancelled t n d := by
  unfold State.cancelIn
  rw [h]
  dsimp only
  rw [if_pos rfl, hd]

/-- The active order's cancel-noted mark set. -/
theorem State.noteCancel_eq {s : State} {n : LaneId} {o : Order} (h : s.activeOrder n = some o) :
    s.noteCancel n = { s with orders := s.orders.set n ({ o with cancelNoted := true } :: (s.queue n).drop 1) } := by
  unfold State.noteCancel State.onHead
  rw [(State.queue_of_activeOrder h).1]
  rfl

/-- Settles O55, by the queue that holds the order and, for an active one, by the lane's state. -/
theorem orderCancelActsByTheOrdersState : Obligations.OrderCancelActsByTheOrdersState := by
  intro s src hi lo t1 t0 rest ha body tag a
  refine ⟨fun htag => ?zero, fun htag hnone => ?unknown, fun n htag hheld hlower => ?held⟩
  case zero =>
    rw [exec_orderCancel ha]
    exact congrArg (fun d : Decision => Host.Outcome.next (d.deliver 0x0C _)) (if_pos htag)
  case unknown =>
    rw [exec_orderCancel ha, decideOrderCancel_of_none (s := a) htag (State.laneOfTag_eq_none hnone)]
    rfl
  case held =>
    rw [exec_orderCancel ha, decideOrderCancel_of_lane (s := a) htag (State.laneOfTag_eq_some hheld hlower)]
    refine ⟨fun hqueued => ?_, ?active⟩
    · rw [State.cancelIn_of_queued (s := a) hqueued]
      rfl
    case active =>
      intro o ho hotag l reply
      have hactive : a.activeOrder n = some o := ho
      have hcancel {t : State} {d : Disposition} (h : a.cancelActive n = some (t, d)) : a.cancelIn n tag = cancelled t n d :=
        hotag ▸ State.cancelIn_of_active hactive h
      have hby : ∀ st, l.seq.state = st → (a.lane n).seq.state = st := fun _ h => h
      refine ⟨fun hst => ?_, fun hst => ?_, fun hst => ?_, fun hst => ?_, ?noted⟩
      · refine ⟨_, State.enterIdle_entersIdle _ n, ?_⟩
        rw [hcancel (t := a.removeActive n) (d := .removed) (by rw [State.cancelActive, hby _ hst])]
        rfl
      · refine ⟨_, State.endOrder_entersIdle hactive (outcome := .cancelled) (by decide) (by decide), ?_⟩
        rw [hcancel (t := a.cancelGangWait n) (d := .ended) (by rw [State.cancelActive, hby _ hst])]
        rfl
      · refine ⟨_, State.endOrder_entersIdle hactive (outcome := .cancelled) (by decide) (by decide), ?_⟩
        rw [hcancel (t := a.endOrder n .cancelled) (d := .ended) (by rw [State.cancelActive, hby _ hst])]
        rfl
      · refine ⟨_, State.closesPlaced_one s n .headClose, ?_⟩
        rw [hcancel (t := a.cutOff n .cancel) (d := .cut) (by rcases hst with h | h <;> rw [State.cancelActive, hby _ h]),
          State.cutOff_eq]
        rfl
      case noted =>
        intro hst noted
        rw [hcancel (t := a.noteCancel n) (d := .noted) (by rcases hst with h | h <;> rw [State.cancelActive, hby _ h]),
          State.noteCancel_eq hactive]
        rfl

end Sys2Proof.Machine
end

section
/-! SUPPORT. RESTART, refused, at once or forced (R115 to R117, R185), and its completion (R186, R187): O37 and O59. -/

namespace Sys2Proof.Machine

/-- A restart completed with its reply placed has the restart values of every block. -/
theorem State.restarted_queueReply (s : State) (src kind hi lo : Byte) (st : Status) (results : List Byte) :
    s.Restarted (s.restarted.queueReply src kind hi lo st results)
      { dest := src, payload := replyPayload kind hi lo st results } where
  unit := rfl
  lanes n := by cases n <;> exact ⟨rfl, rfl, rfl, rfl⟩

/-! ### The completion of a forced restart (R186, R187) -/

theorem exec_restartBoundExpiry {s : State} (h : s.held = false) : exec .restartBoundExpiry s = .next s.boundExpiry :=
  congrArg Host.Outcome.next (State.whileRunning_of_not_held h State.boundExpiry)

theorem State.boundExpiry_of_restart {s : State} {r : RestartRecord} (h : s.restart = some r) :
    s.boundExpiry = (s.atExpiry r.bound).completeRestart r .bound := by
  unfold State.boundExpiry
  rw [h]

/-- The end of the transmission of the last urgent entry completes the restart that waits for it. -/
theorem State.transmitEndDp_of_last {s : State} {r : RestartRecord} {f : Frame} {e : UrgentEntry}
    (h : s.restart = some r) (hf : s.dp.sending = some f) (he : s.dp.urgent = [e]) (hsent : e.sending = true) :
    s.transmitEndDp = { s with dp := { s.dp with sending := none, urgent := [] } }.completeRestart r .drained := by
  unfold State.transmitEndDp
  simp [hf, h, he, hsent]

/-- Settles O37: both completions give the restart values and their reply (`State.restarted_queueReply`). -/
theorem restartCompletesByBoundOrByTransmission : Obligations.RestartCompletesByBoundOrByTransmission := by
  intro s r hheld hr reply
  refine ⟨⟨_, exec_restartBoundExpiry hheld, ?_⟩, fun f e hf he hsent => ⟨_, exec_transmitEnd hheld .dp, ?_⟩⟩
  · rw [State.boundExpiry_of_restart hr, State.atExpiry_eq]
    exact State.restarted_queueReply _ _ _ _ _ _ _
  · rw [State.transmitEnd, State.transmitEndDp_of_last hr hf he hsent]
    exact State.restarted_queueReply { s with dp := { s.dp with sending := none } } _ _ _ _ _ _

/-! ### The acceptance of a RESTART (R115, R185) -/

theorem exec_restart {s : State} {src hi lo : Byte} {args : List Byte} (h : s.Answers src (0x14 :: hi :: lo :: args)) :
    exec (.restart src (hi :: lo :: args)) s =
      .next ((decideRestart { src, tagHi := hi, tagLo := lo, args } (s.asked src (0x14 :: hi :: lo :: args))).deliver
        0x14 { src, tagHi := hi, tagLo := lo, args }) :=
  congrArg Host.Outcome.next (State.request_of_answers h decideRestart)

theorem decideRestart_eq (s : State) (src hi lo force : Byte) (rest : List Byte) :
    decideRestart { src, tagHi := hi, tagLo := lo, args := force :: rest } s =
      if 1 < force.toNat then refuse s .badArg
      else if s.restart.isSome then refuse s .busy
      else if s.anyRunning then
        if force.toNat = 0 then refuse s .state
        else { state := s.acceptRestart src hi lo force.toNat, reply := none }
      else accept s.restarted (s.restartResults force.toNat .immediate) := rfl

theorem State.anyRunning_iff (s : State) : s.anyRunning = true ↔ ∃ n, (s.lane n).Runs := by
  simp [State.anyRunning, Lane.running_iff]

/-- The closes of a lane found filling. -/
theorem State.closeForRestart_eq (s : State) (n : LaneId) :
    s.closeForRestart n = { s with dp := { s.dp with
      urgent := s.dp.urgent ++ if (s.lane n).Runs then s.closing n .headClose ++ s.closing n .isolationClose else [] } } := by
  unfold State.closeForRestart
  rw [State.placeBoth_eq]
  simp only [Lane.running_iff]
  split <;> simp

/-- The closes of one lane leave those of another as they are. -/
theorem State.closing_closeForRestart {s : State} {n m : LaneId} (h : n ≠ m) (k : UrgentKind) :
    (s.closeForRestart n).closing m k = s.closing m k := by
  unfold State.closeForRestart
  split
  · have hhead : (s.placeHeadClose n).closing m k = s.closing m k := by
      rw [State.placeHeadClose_eq]
      exact State.closing_append rfl rfl fun e => h e.1.symm
    rw [← hhead, State.placeIsolationClose_eq]
    exact State.closing_append (s := s.placeHeadClose n) rfl rfl fun e => h e.1.symm
  · rfl

/-- The closes of several lanes, each found filling giving its own. -/
theorem State.foldl_closeForRestart : ∀ {ns : List LaneId} (s : State), ns.Nodup →
    ns.foldl State.closeForRestart s = { s with dp := { s.dp with
      urgent := s.dp.urgent ++ (ns.filter fun n => (s.lane n).Runs).flatMap fun n =>
        s.closing n .headClose ++ s.closing n .isolationClose } }
  | [], s, _ => by simp
  | n :: ns, s, hnodup => by
    obtain ⟨hn, hns⟩ := List.nodup_cons.mp hnodup
    have hlane : ∀ m, (s.closeForRestart n).lane m = s.lane m := fun m => by rw [State.closeForRestart_eq]; rfl
    have hrest : ((ns.filter fun m => ((s.closeForRestart n).lane m).Runs).flatMap fun m =>
          (s.closeForRestart n).closing m .headClose ++ (s.closeForRestart n).closing m .isolationClose)
        = (ns.filter fun m => (s.lane m).Runs).flatMap fun m => s.closing m .headClose ++ s.closing m .isolationClose := by
      simp only [hlane]
      refine List.flatMap_congr fun m hm => ?_
      have hne : n ≠ m := fun h => hn (h ▸ (List.mem_filter.mp hm).1)
      rw [State.closing_closeForRestart hne, State.closing_closeForRestart hne]
    rw [List.foldl_cons, State.foldl_closeForRestart (s.closeForRestart n) hns, hrest, State.closeForRestart_eq]
    by_cases hruns : (s.lane n).Runs
    · rw [if_pos hruns, List.filter_cons_of_pos (p := fun m => decide (s.lane m).Runs) (decide_eq_true hruns),
        List.flatMap_cons]
      simp only [List.append_assoc]
    · rw [if_neg hruns, List.filter_cons_of_neg (p := fun m => decide (s.lane m).Runs) (by simpa using hruns),
        List.append_nil]

/-- The closes of a forced RESTART (R115). -/
def State.restartCloses (s : State) : List UrgentEntry :=
  (allLanes.filter fun n => (s.lane n).Runs).flatMap fun n => s.closing n .headClose ++ s.closing n .isolationClose

theorem State.closesPlaced_restartCloses (s : State) :
    s.ClosesPlaced ((allLanes.filter fun n => (s.lane n).Runs).flatMap fun n => [(n, .headClose), (n, .isolationClose)])
      (s.dp.urgent ++ s.restartCloses) := by
  refine ⟨_, rfl, ?_⟩
  rw [List.flatMap_assoc]
  simp [State.restartCloses]

/-- The acceptance of a forced RESTART (R185). -/
theorem State.acceptRestart_eq (s : State) (src hi lo : Byte) (force : Nat) :
    s.acceptRestart src hi lo force = { s with
      lanes := (s.acceptRestart src hi lo force).lanes
      restart := some { src, tagHi := hi, tagLo := lo, force, bound := { start := s.clock, duration := 50 } }
      up := { s.up with laneNotes := PerLane.all false, unitNote := false }
      dp := { s.dp with slots := PerLane.all none, urgent := s.dp.urgent ++ s.restartCloses } } := by
  unfold State.acceptRestart
  rw [State.foldl_closeForRestart s (by decide)]
  rfl

theorem State.acceptRestart_lane (s : State) (src hi lo : Byte) (force : Nat) (n : LaneId) :
    (s.acceptRestart src hi lo force).lane n = { s.lane n with screenedMark := false } := by
  unfold State.acceptRestart
  rw [State.foldl_closeForRestart s (by decide)]
  cases n <;> rfl

/-- Settles O59, by the checks of R185 in their order. -/
theorem restartIsRefusedImmediateOrForced : Obligations.RestartIsRefusedImmediateOrForced := by
  intro s src hi lo force rest ha body a
  rw [exec_restart ha, decideRestart_eq]
  have hany : a.anyRunning = true ↔ ∃ n, (s.lane n).Runs := State.anyRunning_iff a
  refine ⟨fun hforce => ?bad, fun hforce => ?_⟩
  case bad =>
    rw [if_pos hforce]
    rfl
  rw [if_neg (Nat.not_lt.mpr hforce)]
  refine ⟨fun hrestart => ?busy, fun hrestart => ?_⟩
  case busy =>
    rw [if_pos (show a.restart.isSome = true from Option.isSome_iff_ne_none.mpr hrestart)]
    rfl
  rw [if_neg (show ¬a.restart.isSome = true from Option.not_isSome_iff_eq_none.mpr hrestart)]
  refine ⟨fun hnone => ?atOnce, fun hruns hzero => ?refused, fun hruns hone => ?forced⟩
  case atOnce =>
    rw [if_neg (hany.not.mpr (not_exists.mpr hnone)), State.restartResults, ofNat_toNat_byte]
    exact ⟨_, rfl, State.restarted_queueReply a _ _ _ _ _ _⟩
  case refused =>
    rw [if_pos (hany.mpr hruns), if_pos (show force.toNat = 0 from congrArg BitVec.toNat hzero)]
    rfl
  case forced =>
    subst hone
    rw [if_pos (hany.mpr hruns), if_neg (by decide)]
    refine ⟨a.acceptRestart src hi lo 1, _, rfl, State.closesPlaced_restartCloses s, fun n => ?_, ?_⟩
    · refine ⟨State.acceptRestart_lane a src hi lo 1 n, ?_, ?_⟩ <;> rw [State.acceptRestart_eq] <;> cases n <;> rfl
    · rw [State.acceptRestart_eq]
      rfl

end Sys2Proof.Machine
end

section
/-! SUPPORT. The expiries of the lanes' timers (R83, R91, R92, R98, R105, R106): O32 to O36. -/

namespace Sys2Proof.Machine

theorem exec_silenceExpiry {s : State} (h : s.held = false) (n : LaneId) :
    exec (.silenceExpiry n) s = .next (s.silenceExpiry n) :=
  congrArg Host.Outcome.next (State.whileRunning_of_not_held h _)

theorem exec_openTimerExpiry {s : State} (h : s.held = false) (n : LaneId) :
    exec (.openTimerExpiry n) s = .next (s.openExpiry n) :=
  congrArg Host.Outcome.next (State.whileRunning_of_not_held h _)

theorem exec_closeTimerExpiry {s : State} (h : s.held = false) (n : LaneId) :
    exec (.closeTimerExpiry n) s = .next (s.closeExpiry n) :=
  congrArg Host.Outcome.next (State.whileRunning_of_not_held h _)

theorem exec_fallTimerExpiry {s : State} (h : s.held = false) (n : LaneId) :
    exec (.fallTimerExpiry n) s = .next (s.fallExpiry n) :=
  congrArg Host.Outcome.next (State.whileRunning_of_not_held h _)

theorem exec_settleTimerExpiry {s : State} (h : s.held = false) (n : LaneId) :
    exec (.settleTimerExpiry n) s = .next (s.settleExpiry n) :=
  congrArg Host.Outcome.next (State.whileRunning_of_not_held h _)

theorem exec_gangTimerExpiry {s : State} (h : s.held = false) (n : LaneId) :
    exec (.gangTimerExpiry n) s = .next (s.gangExpiry n) :=
  congrArg Host.Outcome.next (State.whileRunning_of_not_held h _)

/-! ### A timer stopped at its expiry -/

/-- `s` at the expiry of a timer, lane `n`'s sequencer changed by `f` (log 3). -/
def State.expired (s : State) (timer : Timer) (n : LaneId) (f : Sequencer → Sequencer) : State :=
  { s with clock := s.timeAt timer, lanes := s.lanes.set n { s.lane n with seq := f (s.lane n).seq } }

theorem State.atExpiry_onLane_onSeq (s : State) (timer : Timer) (n : LaneId) (f : Sequencer → Sequencer) :
    ((s.atExpiry timer).onLane n fun l => l.onSeq f) = s.expired timer n f := by
  rw [State.atExpiry_eq]
  rfl

@[simp] theorem State.expired_lane (s : State) (timer : Timer) (n : LaneId) (f : Sequencer → Sequencer) :
    (s.expired timer n f).lane n = { s.lane n with seq := f (s.lane n).seq } := PerLane.get_set_self _ _ _

theorem State.expired_onLane_onSeq (s : State) (timer : Timer) (n : LaneId) (f g : Sequencer → Sequencer) :
    ((s.expired timer n f).onLane n fun l => l.onSeq g) = s.expired timer n (g ∘ f) := by
  simp [State.expired, State.onLane, State.putLane, State.lane, Lane.onSeq]

/-! ### The result of a compartment that an entry to FAULT ends (R108) -/

theorem Lane.faultResult_of_pouring {l : Lane} (h : l.seq.state = .filling ∨ l.seq.state = .trickle) (o : Order) :
    (l.faultResult o.targetKg).toList = [l.resultFrom o (l.cutoffNow .fault) false false] := by
  unfold Lane.faultResult
  rcases h with h | h <;> rw [h] <;> rfl

theorem Lane.faultResult_of_cutoff {l : Lane} {d : CutoffData} (h : l.seq.state = .cutoff) (hd : l.seq.cutoff = some d)
    (o : Order) : (l.faultResult o.targetKg).toList = [l.resultFrom o { d with cause := .fault } false false] := by
  unfold Lane.faultResult Lane.cutoffData
  rw [h, hd]
  rfl

theorem Lane.faultResult_of_settling {l : Lane} {d : CutoffData} (h : l.seq.state = .settling)
    (hd : l.seq.cutoff = some d) (o : Order) :
    (l.faultResult o.targetKg).toList = [l.resultFrom o d true false] := by
  unfold Lane.faultResult Lane.settledResult Lane.cutoffData
  rw [h, hd]
  rfl

theorem Lane.faultResult_of_indexing {l : Lane} (h : l.seq.state = .indexing) (o : Order) :
    (l.faultResult o.targetKg).toList = [] := by
  unfold Lane.faultResult
  rw [h]
  rfl

/-- An entry to FAULT ends in the same state whatever the open and the close timer were. -/
theorem State.faulted_of_timers (s : State) (n : LaneId) (openTimer closeTimer : Option Timer) (v : List UrgentEntry)
    (o : Order) (cause : FaultCause) (results : List CompResult) (urgent : List UrgentEntry) :
    ({ s with
      lanes := s.lanes.set n { s.lane n with seq := { (s.lane n).seq with openTimer, closeTimer } }
      dp := { s.dp with urgent := v } }).faulted n o cause results urgent = s.faulted n o cause results urgent := by
  simp [State.faulted, State.moved, State.ended, State.lane, State.queue]

/-- The entry to FAULT at the expiry of an open or a close timer, the closes of the cause placed. -/
theorem State.enterFault_expired {s : State} {n : LaneId} {timer : Timer} {o : Order} {f : Sequencer → Sequencer}
    {results : List CompResult} (openTimer closeTimer : Option Timer) (urgent : List UrgentEntry) (cause : FaultCause)
    (h : s.activeOrder n = some o) (hf : f (s.lane n).seq = { (s.lane n).seq with openTimer, closeTimer })
    (hresults : ({ s.lane n with seq := f (s.lane n).seq }.faultResult o.targetKg).toList = results) :
    ({ s.expired timer n f with dp := { (s.expired timer n f).dp with urgent } }).enterFault n cause =
      ({ s with clock := s.timeAt timer }).faulted n o cause results urgent := by
  have hat := (congrArg (fun l : Lane => (l.faultResult o.targetKg).toList) (State.expired_lane s timer n f)).trans hresults
  refine (State.enterFault_eq cause (by exact h)).trans ((congrArg (fun r => State.faulted _ n o cause r urgent) hat).trans ?_)
  unfold State.expired
  rw [hf]
  exact State.faulted_of_timers { s with clock := s.timeAt timer } n openTimer closeTimer urgent o cause _ urgent

/-! ### The silence timer (R91, R92) -/

/-- `s` at the expiry of lane `n`'s silence timer, before the lane's state decides (R91). -/
def State.silencedAt (s : State) (n : LaneId) (timer : Timer) : State :=
  { s with
    clock := s.timeAt timer
    lanes := s.lanes.set n (s.lane n).silenced
    up := { s.up with laneNotes := s.up.laneNotes.set n true } }

theorem State.silenceExpiry_of_timer {s : State} {n : LaneId} {timer : Timer} (h : (s.lane n).seq.silenceTimer = some timer) :
    s.silenceExpiry n = (s.silencedAt n timer).silenceReaction n := by
  unfold State.silenceExpiry
  rw [h]
  dsimp only
  rw [State.atExpiry_eq]
  rfl

theorem State.silencedAt_lane (s : State) (n : LaneId) (timer : Timer) :
    (s.silencedAt n timer).lane n = (s.lane n).silenced := PerLane.get_set_self _ _ _

theorem State.silenceReaction_of_not_auto {s : State} {n : LaneId} (h : (s.lane n).seq.mode ≠ .auto) :
    s.silenceReaction n = s := by
  unfold State.silenceReaction
  split
  · rfl
  · rfl
  · contradiction

/-- What a silence expiry does to a lane in AUTO in this state (R92). -/
def State.silentIn (s : State) (n : LaneId) : LaneState → State
  | .idle => s
  | .fault => s
  | .armed => s.setHold n .headSilent
  | .gangWait => s.dropOut n .headSilent
  | .filling => s.faultClosingAll n .headSilent
  | .trickle => s.faultClosingAll n .headSilent
  | .cutoff => s.faultClosingAll n .headSilent
  | .settling => s.enterFault n .headSilent
  | .indexing => s.enterFault n .headSilent

theorem State.silenceReaction_of_auto {s : State} {n : LaneId} (h : (s.lane n).seq.mode = .auto) :
    s.silenceReaction n = s.silentIn n (s.lane n).seq.state := by
  unfold State.silenceReaction
  rw [h]
  cases (s.lane n).seq.state <;> rfl

/-- Settles O32, by the lane's mode and state. -/
theorem silenceExpiryMarksTheLane : Obligations.SilenceExpiryMarksTheLane := by
  intro s n timer hheld htimer
  refine ⟨(s.silencedAt n timer).silenceReaction n, ?_, ?_⟩
  · rw [exec_silenceExpiry hheld, State.silenceExpiry_of_timer htimer]
  intro l l' a faults both
  have hlane : a.lane n = l' := State.silencedAt_lane s n timer
  have hboth {results : Order → List CompResult} (hreact : a.silenceReaction n = a.faultClosingAll n .headSilent)
      (hresults : ∀ o, (l'.faultResult o.targetKg).toList = results o) : faults both results := fun o ho =>
    ⟨_, State.closesPlaced_both s n, by
      rw [← hresults o, ← hlane]
      exact hreact.trans (State.faultClosingAll_eq (s := a) .headSilent ho)⟩
  have hnone {results : Order → List CompResult} (hreact : a.silenceReaction n = a.enterFault n .headSilent)
      (hresults : ∀ o, (l'.faultResult o.targetKg).toList = results o) : faults [] results := fun o ho =>
    ⟨_, State.closesPlaced_none s, by
      rw [← hresults o, ← hlane]
      exact hreact.trans (State.enterFault_eq (s := a) .headSilent ho)⟩
  by_cases hmode : l.seq.mode = .auto
  case neg =>
    rw [if_neg hmode]
    exact State.silenceReaction_of_not_auto (s := a) (by rw [hlane]; exact hmode)
  have hreact {u : State} {st : LaneState} (hst : l.seq.state = st) (hu : a.silentIn n st = u) :
      a.silenceReaction n = u := by
    rw [State.silenceReaction_of_auto (s := a) (by rw [hlane]; exact hmode), hlane]
    exact (congrArg (a.silentIn n) hst).trans hu
  rw [if_pos hmode]
  cases hst : l.seq.state with
  | idle => exact hreact hst rfl
  | fault => exact hreact hst rfl
  | armed => exact hreact hst (State.setHold_eq _ _ _)
  | gangWait => exact fun o ho => hreact hst (State.dropOut_eq (s := a) ho _)
  | filling => exact hboth (hreact hst rfl) (Lane.faultResult_of_pouring (l := l') (.inl hst))
  | trickle => exact hboth (hreact hst rfl) (Lane.faultResult_of_pouring (l := l') (.inr hst))
  | cutoff => exact fun d hd => hboth (hreact hst rfl) (Lane.faultResult_of_cutoff (l := l') hst hd)
  | settling => exact fun d hd => hnone (hreact hst rfl) (Lane.faultResult_of_settling (l := l') hst hd)
  | indexing => exact hnone (hreact hst rfl) (Lane.faultResult_of_indexing (l := l') hst)

/-! ### The open timer (R98) -/

/-- The wanted position placed again, where there is one. -/
theorem State.elim_placePosition (s : State) (n : LaneId) (wanted : Option Nat) :
    wanted.elim s (s.placePosition n) =
      { s with dp := { s.dp with slots := s.dp.slots.set n (wanted.elim (s.dp.slots.get n) (s.slotAfter n)) } } := by
  cases wanted with
  | none => simp
  | some p => exact State.placePosition_eq s n p

theorem State.openExpiry_of_retry {s : State} {n : LaneId} {timer : Timer} (h : (s.lane n).seq.openTimer = some timer)
    (hpours : (s.lane n).pouring = true) (hleft : (s.lane n).seq.openRetries < (s.lane n).params.gateRetries) :
    s.openExpiry n =
      let u := s.expired timer n fun q =>
        { q with
          openRetries := q.openRetries + 1
          openTimer := some { start := s.timeAt timer, duration := (s.lane n).params.confirmTime } }
      (s.lane n).seq.wanted.elim u (u.placePosition n) := by
  unfold State.openExpiry
  rw [h]
  dsimp only
  rw [State.atExpiry_onLane_onSeq, State.expired_onLane_onSeq]
  refine (if_pos (by rw [State.expired_lane]; exact hpours)).trans
    ((if_pos (by rw [State.expired_lane]; exact hleft)).trans ?_)
  rw [State.expired_lane]
  dsimp only
  cases (s.lane n).seq.wanted <;> rfl

theorem State.openExpiry_of_spent {s : State} {n : LaneId} {timer : Timer} (h : (s.lane n).seq.openTimer = some timer)
    (hpours : (s.lane n).pouring = true) (hspent : (s.lane n).params.gateRetries ≤ (s.lane n).seq.openRetries) :
    s.openExpiry n =
      ((s.expired timer n fun q => { q with openTimer := none }).placeHeadClose n).enterFault n .gateStuck := by
  unfold State.openExpiry
  rw [h]
  dsimp only
  rw [State.atExpiry_onLane_onSeq]
  exact (if_pos (by rw [State.expired_lane]; exact hpours)).trans
    (if_neg (by rw [State.expired_lane]; exact Nat.not_lt.mpr hspent))

/-- Settles O33, by the retries left. -/
theorem openTimerExpiryRetriesOrFaults : Obligations.OpenTimerExpiryRetriesOrFaults := by
  intro s n timer hheld htimer hmode hst l now
  have hpours : l.pouring = true := (Lane.pouring_iff hmode).mpr hst
  rw [exec_openTimerExpiry hheld]
  refine ⟨fun hleft => ?_, fun hspent o ho => ⟨_, State.closesPlaced_one s n .headClose, ?_⟩⟩
  · rw [State.openExpiry_of_retry htimer hpours hleft]
    dsimp only
    rw [State.elim_placePosition]
    rfl
  · rw [State.openExpiry_of_spent htimer hpours hspent, State.placeHeadClose_eq]
    exact congrArg Host.Outcome.next (State.enterFault_expired none l.seq.closeTimer _ _ ho rfl
      (Lane.faultResult_of_pouring (l := { l with seq := { l.seq with openTimer := none } }) hst o))

/-! ### The close timer (R105) -/

theorem State.closeExpiry_of_retry {s : State} {n : LaneId} {timer : Timer} (h : (s.lane n).seq.closeTimer = some timer)
    (hmode : (s.lane n).seq.mode = .auto) (hst : (s.lane n).seq.state = .cutoff)
    (hleft : (s.lane n).seq.closeRetries < (s.lane n).params.gateRetries) :
    s.closeExpiry n =
      let u := s.expired timer n fun q =>
        { q with
          closeRetries := q.closeRetries + 1
          closeTimer := some { start := s.timeAt timer, duration := (s.lane n).params.confirmTime } }
      { u with dp := { s.dp with urgent := s.dp.urgent ++ s.closing n .headClose } } := by
  unfold State.closeExpiry
  rw [h]
  dsimp only
  rw [State.atExpiry_onLane_onSeq, State.placeHeadClose_eq]
  refine (if_pos (by rw [State.expired_lane]; simp [hmode, hst])).trans
    ((if_pos (by rw [State.expired_lane]; exact hleft)).trans ?_)
  rw [State.expired_lane]
  simp [State.expired, State.onLane, State.putLane, State.lane, Lane.onSeq, State.startTimer, Lane.params]
  rfl

theorem State.closeExpiry_of_spent {s : State} {n : LaneId} {timer : Timer} (h : (s.lane n).seq.closeTimer = some timer)
    (hmode : (s.lane n).seq.mode = .auto) (hst : (s.lane n).seq.state = .cutoff)
    (hspent : (s.lane n).params.gateRetries ≤ (s.lane n).seq.closeRetries) :
    s.closeExpiry n =
      ((s.expired timer n fun q => { q with closeTimer := none }).placeIsolationClose n).enterFault n .runaway := by
  unfold State.closeExpiry
  rw [h]
  dsimp only
  rw [State.atExpiry_onLane_onSeq]
  exact (if_pos (by rw [State.expired_lane]; simp [hmode, hst])).trans
    (if_neg (by rw [State.expired_lane]; exact Nat.not_lt.mpr hspent))

/-- Settles O34, by the retries left. -/
theorem closeTimerExpiryRetriesOrFaults : Obligations.CloseTimerExpiryRetriesOrFaults := by
  intro s n timer hheld htimer hmode hst l now
  rw [exec_closeTimerExpiry hheld]
  refine ⟨fun hleft => ⟨_, State.closesPlaced_one s n .headClose, ?_⟩,
    fun hspent o d ho hd => ⟨_, State.closesPlaced_one s n .isolationClose, ?_⟩⟩
  · rw [State.closeExpiry_of_retry htimer hmode hst hleft]
    rfl
  · rw [State.closeExpiry_of_spent htimer hmode hst hspent, State.placeIsolationClose_eq]
    exact congrArg Host.Outcome.next (State.enterFault_expired l.seq.openTimer none _ _ ho rfl
      (Lane.faultResult_of_cutoff (l := { l with seq := { l.seq with closeTimer := none } }) hst hd o))

/-! ### The fall, gang and settle timers (R83, R106) -/

theorem State.fallExpiry_of_timer {s : State} {n : LaneId} {timer : Timer} (h : (s.lane n).seq.fallTimer = some timer) :
    s.fallExpiry n = s.expired timer n fun q => { q with fallTimer := none } := by
  unfold State.fallExpiry
  rw [h]
  exact State.atExpiry_onLane_onSeq s timer n _

theorem State.gangExpiry_of_timer {s : State} {n : LaneId} {timer : Timer} (h : (s.lane n).seq.gangTimer = some timer)
    (hmode : (s.lane n).seq.mode = .auto) (hst : (s.lane n).seq.state = .gangWait) :
    s.gangExpiry n = (s.expired timer n fun q => { q with gangTimer := none }).endOrder n .gangTimeout := by
  unfold State.gangExpiry
  rw [h]
  dsimp only
  rw [State.atExpiry_onLane_onSeq]
  exact if_pos (by rw [State.expired_lane]; simp [hmode, hst])

/-- Settles O35: the fall timer just stops; the gang timer ends the order, and the lane enters IDLE. -/
theorem fallAndGangTimerExpiries : Obligations.FallAndGangTimerExpiries := by
  refine ⟨fun s n timer hheld htimer => ?_, fun s n timer o hheld htimer hmode hst ho => ⟨_, exec_gangTimerExpiry hheld n, ?_⟩⟩
  · rw [exec_fallTimerExpiry hheld, State.fallExpiry_of_timer htimer]
    rfl
  · rw [State.gangExpiry_of_timer htimer hmode hst]
    exact State.endOrder_entersIdle (by exact ho) (by decide) (by decide)

theorem State.settleExpiry_of_timer {s : State} {n : LaneId} {timer : Timer} (h : (s.lane n).seq.settleTimer = some timer)
    (hmode : (s.lane n).seq.mode = .auto) (hst : (s.lane n).seq.state = .settling) :
    s.settleExpiry n = (s.expired timer n fun q => { q with settleTimer := none }).endSettling n := by
  unfold State.settleExpiry
  rw [h]
  dsimp only
  rw [State.atExpiry_onLane_onSeq]
  exact if_pos (by rw [State.expired_lane]; simp [hmode, hst])


/-- The settling that ends at its timer's expiry ends as it would with the timer running. -/
theorem State.settlingEnds_of_expired {s t : State} {n : LaneId} {timer : Timer} {o : Order} {d : CutoffData}
    (h : (s.expired timer n fun q => { q with settleTimer := none }).SettlingEnds t n o d) :
    ({ s with clock := s.timeAt timer }).SettlingEnds t n o d := by
  have hset : ∀ l, (s.expired timer n fun q => { q with settleTimer := none }).lanes.set n l = s.lanes.set n l :=
    fun l => PerLane.set_set_self _ _ _ _
  have hlane : ((s.expired timer n fun q => { q with settleTimer := none }).lane n).settledLane o d =
      (s.lane n).settledLane o d := by
    rw [State.expired_lane]
    rfl
  have horder : ((s.expired timer n fun q => { q with settleTimer := none }).lane n).settledOrder o d =
      (s.lane n).settledOrder o d := by
    rw [State.expired_lane]
    rfl
  have hentry : ((s.expired timer n fun q => { q with settleTimer := none }).lane n).entryAfter o d =
      (s.lane n).entryAfter o d := by
    rw [State.expired_lane]
    rfl
  unfold State.SettlingEnds at h
  simp only [hlane, horder, hentry, hset] at h
  exact h

/-- Settles O36: the expiry is the end of settling of `State.endSettling_settlingEnds`. -/
theorem settleTimerExpiryEndsSettling : Obligations.SettleTimerExpiryEndsSettling := by
  intro s n timer o d hheld htimer hmode hst ho hd
  refine ⟨_, exec_settleTimerExpiry hheld n, State.settlingEnds_of_expired ?_⟩
  rw [State.settleExpiry_of_timer htimer hmode hst]
  exact State.endSettling_settlingEnds (by exact ho) (by rw [State.expired_lane]; exact hd)

end Sys2Proof.Machine
end

section
/-! SUPPORT. A sample out of service, a duplicate, and a sample of a lane in MANUAL (R3, R4, R9, R139): O26, O27, O28. -/

namespace Sys2Proof.Machine

/-- A sample that the lane's engine takes now, out of the list of those that wait. -/
def State.hearing (s : State) (n : LaneId) (f : Frame) : State := { s with toLanes := s.toLanes.erase (n, f) }

theorem exec_sample_of_hears {s : State} {n : LaneId} {f : Frame} {m : Meas} (h : s.Hears n f m) :
    exec (.sample n f) s = .next (((s.hearing n f).takeSample n m).trailed n f) := exec_sample_heard h

/-- The annotation of a sample of a lane that stands as `l`. -/
theorem State.trailed_of_set {s : State} {n : LaneId} {f : Frame} {l : Lane} {up : UpPort} {state : LaneState}
    {grams : Nat} (hstate : (if l.seq.mode = .auto then l.seq.state else .idle) = state)
    (hgrams : (if l.seq.mode = .manual then l.integ.manualTotal else l.integ.grams) = grams) :
    ({ s with lanes := s.lanes.set n l, up }).trailed n f =
      ({ s with lanes := s.lanes.set n { l with resumeMark := false }, up }).forwardUp
        (makeFrame f.dest f.src f.kind
          (f.payload ++ trailerOf state l.resumeMark l.cls.active l.flow.flow grams)) := by
  subst hstate hgrams
  simp [State.trailed, State.lane]

/-- A sample out of service keeps contact and copies the head's report (R3, R4). -/
theorem State.takeSample_of_outOfService {s : State} {n : LaneId} (m : Meas)
    (h : (s.lane n).seq.mode = .outOfService) :
    s.takeSample n m = { s with
      lanes := s.lanes.set n (((s.lane n).contacted s.clock).copyReport m)
      up := { s.up with laneNotes :=
        if (s.lane n).seq.silentMark then s.up.laneNotes.set n true else s.up.laneNotes } } := by
  have hmode : ((s.contact n).lane n).seq.mode = .outOfService := by
    rw [State.contact_eq]
    exact (congrArg (fun l : Lane => l.seq.mode) (PerLane.get_set_self _ _ _)).trans h
  unfold State.takeSample
  simp only [hmode]
  rw [State.contact_eq]
  simp [State.onLane, State.putLane, State.lane]

theorem Lane.stage1_of_duplicate {l : Lane} {m : Meas} (h : l.cond.prevTimestamp = some m.timestamp) :
    l.stage1 m = ({ l with counters := { l.counters with duplicates := bump l.counters.duplicates } }, none) := by
  unfold Lane.stage1
  rw [h]
  exact if_pos (by rw [BitVec.sub_self]; rfl)

/-- A duplicate keeps contact and is counted (R3, R9). -/
theorem State.takeSample_of_duplicate {s : State} {n : LaneId} {m : Meas} (h : (s.lane n).seq.mode ≠ .outOfService)
    (hdup : (s.lane n).cond.prevTimestamp = some m.timestamp) :
    s.takeSample n m = { s with
      lanes := s.lanes.set n { (s.lane n).contacted s.clock with counters :=
        { (s.lane n).counters with duplicates := raised (s.lane n).counters.duplicates } }
      up := { s.up with laneNotes :=
        if (s.lane n).seq.silentMark then s.up.laneNotes.set n true else s.up.laneNotes } } := by
  have hlane : (s.contact n).lane n = (s.lane n).contacted s.clock := by
    rw [State.contact_eq]
    exact PerLane.get_set_self _ _ _
  have hmode : ((s.contact n).lane n).seq.mode ≠ .outOfService := by rw [hlane]; exact h
  have hstage : ((s.contact n).lane n).stage1 m = ({ (s.lane n).contacted s.clock with counters :=
      { (s.lane n).counters with duplicates := raised (s.lane n).counters.duplicates } }, none) := by
    rw [hlane, ← bump_eq_raised]
    exact Lane.stage1_of_duplicate hdup
  unfold State.takeSample
  dsimp only
  rw [hstage]
  split
  · contradiction
  · rw [State.contact_eq]
    simp [State.putLane]

/-- Settles O26: out of service a sample goes through none of the stages. -/
theorem outOfServiceSampleOnlyKeepsContact : Obligations.OutOfServiceSampleOnlyKeepsContact := by
  intro s n f m hhears hmode l kept
  rw [exec_sample_of_hears hhears, State.takeSample_of_outOfService (s := s.hearing n f) m hmode]
  have hmanual : ¬l.seq.mode = .manual := fun h => nomatch h.symm.trans hmode
  have hauto : ¬l.seq.mode = .auto := fun h => nomatch h.symm.trans hmode
  exact congrArg Host.Outcome.next (State.trailed_of_set (s := s.hearing n f) (if_neg hauto) (if_neg hmanual))

/-- Settles O27: stage 1 discards a duplicate. -/
theorem duplicateSampleIsDiscarded : Obligations.DuplicateSampleIsDiscarded := by
  intro s n f m hhears hmode hdup l kept grams state
  have hstate : (if l.seq.mode = .auto then l.seq.state else .idle) = state := by
    unfold state
    cases h : l.seq.mode with
    | outOfService => exact absurd h hmode
    | manual => rfl
    | auto => rfl
  rw [exec_sample_of_hears hhears, State.takeSample_of_duplicate (s := s.hearing n f) hmode hdup]
  exact congrArg Host.Outcome.next (State.trailed_of_set (s := s.hearing n f) hstate rfl)

/-! ### Up to stage 5 -/

/-- What stage 4 tells stage 5 of a sample that is no duplicate. -/
def Lane.figuresAfter (now : BitVec 32) (l : Lane) (m : Meas) (targetKg : Nat) : Figures :=
  (({ (l.contacted now).conditioned m with
      zero := l.zeroAfter m
      cls := l.cls.step l.params (l.recordAfter m) } : Lane).stage4 (l.recordAfter m) targetKg).2

/-- A sample in service that is no duplicate: stages 1 to 4, then stage 5. -/
theorem exec_sample_staged {s : State} {n : LaneId} {f : Frame} {m : Meas} (h : s.Hears n f m)
    (hservice : (s.lane n).seq.mode ≠ .outOfService) (hnew : (s.lane n).cond.prevTimestamp ≠ some m.timestamp) :
    exec (.sample n f) s =
      .next (((s.atStage5 n f ((s.lane n).staged s.clock m)).stage5 n ((s.lane n).recordAfter m)
        ((s.lane n).regimeLeft s.clock m) ((s.lane n).figuresAfter s.clock m (s.activeTarget n))).trailed n f) := by
  rw [exec_sample_of_hears h, State.takeSample_eq (s := s.hearing n f) hservice hnew]
  rfl

theorem State.stage5_of_not_filling {s : State} {n : LaneId} (h : (s.lane n).inFilling = false) (r : SampleRecord)
    (left : Option Regime) (fig : Figures) : s.stage5 n r left fig = s.stage5Tests n r fig := by
  unfold State.stage5
  cases left with
  | none => rfl
  | some old => exact if_neg (by simp [h])

theorem State.stage5Tests_of_manual {s : State} {n : LaneId} (h : (s.lane n).seq.mode = .manual) (r : SampleRecord)
    (fig : Figures) : s.stage5Tests n r fig = s := by
  unfold State.stage5Tests
  rw [h]

/-- Settles O28: after stages 1 to 4 (`Lane.staged_handled`) a lane in MANUAL decides nothing. -/
theorem manualSampleIsMetered : Obligations.ManualSampleIsMetered := by
  intro s n f m hhears hmode hnew
  have hservice : (s.lane n).seq.mode ≠ .outOfService := fun h => nomatch h.symm.trans hmode
  have hat : ((s.atStage5 n f ((s.lane n).staged s.clock m)).lane n).seq.mode = .manual := by
    rw [State.atStage5_lane]
    exact hmode
  refine ⟨_, (s.lane n).staged_handled s.clock m, ?_⟩
  rw [exec_sample_staged hhears hservice hnew,
    State.stage5_of_not_filling (by rw [Lane.inFilling, hat]; rfl), State.stage5Tests_of_manual hat]

end Sys2Proof.Machine
end

section
/-! SUPPORT. What a sample leaves alone (R5, R81, R82, R85, R158): O31. -/

namespace Sys2Proof.Machine

/-- The lanes outside `P`, and of the unit what no lane engine and no frame on its way upward changes, are in `t` as
in `s`. -/
def State.Spared (P : LaneId → Prop) (s t : State) : Prop :=
  (∀ m, ¬P m → t.lane m = s.lane m ∧ t.queue m = s.queue m ∧ t.dp.slots.get m = s.dp.slots.get m
      ∧ t.up.laneNotes.get m = s.up.laneNotes.get m)
    ∧ t.straps = s.straps ∧ t.held = s.held ∧ t.clock = s.clock ∧ t.routes = s.routes
    ∧ t.controller = s.controller ∧ t.restart = s.restart ∧ t.unanswered = s.unanswered
    ∧ t.wrongPort = s.wrongPort ∧ t.toSwitch = s.toSwitch ∧ t.toResponder = s.toResponder
    ∧ t.up.replies = s.up.replies ∧ t.up.sending = s.up.sending ∧ t.up.unitNote = s.up.unitNote
    ∧ t.up.lastServed = s.up.lastServed ∧ t.up.lastNote = s.up.lastNote
    ∧ t.dp.forward = s.dp.forward ∧ t.dp.sending = s.dp.sending ∧ t.dp.common = s.dp.common
    ∧ t.dp.lastServed = s.dp.lastServed ∧ t.dp.lastLane = s.dp.lastLane

theorem State.OnlyLanes.spared {P : LaneId → Prop} {s t : State} (h : s.OnlyLanes P t) : s.Spared P t :=
  ⟨fun m hm => ⟨h.lane m hm, h.queue m hm, h.slot m hm, h.note m hm⟩, h.straps, h.held, h.clock, h.routes, h.controller,
    h.restart, h.unanswered, h.wrongPort, h.toSwitch, h.toResponder, by rw [h.up], by rw [h.up], by rw [h.up],
    by rw [h.up], by rw [h.up], by rw [h.dp], by rw [h.dp], by rw [h.dp], by rw [h.dp], by rw [h.dp]⟩

theorem State.Spared.forwardUp {P : LaneId → Prop} {s t : State} (h : s.Spared P t) (f : Frame) :
    s.Spared P (t.forwardUp f) := by
  simpa [State.Spared] using h

theorem State.Spared.of_hearing {P : LaneId → Prop} {s t : State} {n : LaneId} {f : Frame}
    (h : (s.hearing n f).Spared P t) : s.Spared P t := h

/-- A routed measurement in its turn spares the lanes outside its own and those it may release. -/
theorem State.spared_handleMeasurement (s : State) {P : LaneId → Prop} {n : LaneId} (hn : P n)
    (hw : s.ReleasesIn P n (s.joining n)) (f : Frame) : s.Spared P (s.handleMeasurement n f) := by
  unfold State.handleMeasurement
  split_ifs
  · exact (State.OnlyLanes.refl P s).spared
  · split
    · exact ((State.onlyLanes_sample s hn hw _).trans (State.onlyLanes_onLane _ hn _)).spared.forwardUp _
    · exact (State.onlyLanes_onLane s hn _).spared.forwardUp f

theorem exec_sample_eq (n : LaneId) (f : Frame) (s : State) :
    exec (.sample n f) s = .next (if s.held then s
      else if inTurn s.toLanes (n, f) then (s.hearing n f).handleMeasurement n f else s) := rfl

/-- Settles O31: the lane of the sample and those that wait in the gang it may bring together are all it can touch. -/
theorem sampleLeavesOtherLanesAndTheUnitAlone : Obligations.SampleLeavesOtherLanesAndTheUnitAlone := by
  intro s t n f ht
  let P : LaneId → Prop := fun m => m = n ∨ ∃ o, s.joining n = some o ∧ o.gangTag ≠ 0 ∧ s.Waits o.gangTag m
  have hw : (s.hearing n f).ReleasesIn P n ((s.hearing n f).joining n) :=
    fun o ho hgang m _ hwaits => .inr ⟨o, ho, hgang, hwaits⟩
  rw [exec_sample_eq] at ht
  injection ht with ht
  have hspared : s.Spared P t := by
    rw [← ht]
    split_ifs
    · exact (State.OnlyLanes.refl P s).spared
    · exact (State.spared_handleMeasurement (s.hearing n f) (.inl rfl) hw f).of_hearing
    · exact (State.OnlyLanes.refl P s).spared
  have hturn : inTurn s.toLanes (n, f) = false → t = s := fun h => by
    rw [← ht]
    simp [h]
  obtain ⟨hlanes, hunit⟩ := hspared
  refine ⟨fun m hne hgang => hlanes m (not_or.mpr ⟨hne, hgang⟩), ?_⟩
  have hall := And.intro hunit hturn
  simpa only [and_assoc] using hall

end Sys2Proof.Machine
end

section
/-! SUPPORT. A sample of a lane in AUTO outside FILLING and TRICKLE (R73, R80 to R82, R95, R104, R106, R109): O30. -/

namespace Sys2Proof.Machine

/-- A change of the sequencer at the start of stage 5. -/
theorem State.atStage5_onLane_onSeq (s : State) (n : LaneId) (f : Frame) (l : Lane) (g : Sequencer → Sequencer) :
    ((s.atStage5 n f l).onLane n fun x => x.onSeq g) = s.atStage5 n f { l with seq := g l.seq } := by
  simp [State.onLane, State.putLane, Lane.onSeq, State.atStage5, State.lane]

/-- A lane in GANG_WAIT drops out by the first precondition that fails (R82). -/
theorem State.decideGangWait_eq {s : State} {n : LaneId} {o : Order} (h : s.activeOrder n = some o) :
    s.decideGangWait n = (s.lane n).failing.head?.elim s fun c => s.droppedOut n o c := by
  unfold State.decideGangWait
  rcases (s.lane n).precondition_cases with ⟨hp, hf⟩ | ⟨c, rest, hc, hp, hf⟩
  · rw [hp, hf]
    rfl
  · rw [hp, hf]
    split
    · contradiction
    · exact State.dropOut_eq h c

/-- A lane in INDEXING is held by the first precondition that fails, or enters its next compartment (R109). -/
theorem State.decideIndexing_opens {s : State} {n : LaneId} {o : Order} (h : s.activeOrder n = some o)
    (hnone : (s.lane n).failing = []) : s.Opens (s.decideIndexing n) [n] (o.compartment + 1) := by
  unfold State.decideIndexing
  rcases (s.lane n).precondition_cases with ⟨hp, _⟩ | ⟨c, rest, _, _, hf⟩
  · rw [hp, h]
    exact State.enterFilling_opens _ h
  · exact nomatch hnone.symm.trans hf

theorem State.decideIndexing_of_failing {s : State} {n : LaneId} {c : HoldCause} {rest : List HoldCause}
    (hfails : (s.lane n).failing = c :: rest) : s.decideIndexing n = s.holding n c := by
  unfold State.decideIndexing
  rcases (s.lane n).precondition_cases with ⟨_, hf⟩ | ⟨d, _, hd, hp, hf⟩
  · exact nomatch hf.symm.trans hfails
  · obtain ⟨rfl, -⟩ := List.cons.inj (hf.symm.trans hfails)
    rw [hp]
    split
    · contradiction
    · exact State.setHold_eq s n d

/-- The quiet run after a sample in SETTLING (R106). -/
def Lane.quietAfter (l : Lane) : Nat :=
  if l.seq.fallTimer ≠ none then 0 else if l.flow.flow ≤ l.params.settleFlow then l.seq.quietRun + 1 else 0

theorem State.decideSettling_eq (s : State) (n : LaneId) :
    s.decideSettling n =
      let t := s.onLane n fun l => l.onSeq fun q => { q with quietRun := (s.lane n).quietAfter }
      if (s.lane n).params.window ≤ (s.lane n).quietAfter then t.endSettling n else t := by
  unfold State.decideSettling Lane.quietAfter
  simp only [Option.isSome_iff_ne_none]

/-- Stage 5 of a lane in AUTO in this state. -/
def State.stage5In (s : State) (n : LaneId) (r : SampleRecord) (fig : Figures) : LaneState → State
  | .idle => s.takeUp n
  | .armed => s.testArmed n
  | .gangWait => s.decideGangWait n
  | .filling => s.decidePouring n r fig
  | .trickle => s.decidePouring n r fig
  | .cutoff => if r.gate ≤ (s.lane n).params.closedBand then s.enterSettling n else s
  | .settling => s.decideSettling n
  | .indexing => s.decideIndexing n
  | .fault => s

theorem State.stage5Tests_of_auto {s : State} {n : LaneId} (h : (s.lane n).seq.mode = .auto) (r : SampleRecord)
    (fig : Figures) : s.stage5Tests n r fig = s.stage5In n r fig (s.lane n).seq.state := by
  unfold State.stage5Tests
  rw [h]
  cases (s.lane n).seq.state <;> rfl

/-- Settles O30, by the lane's state. -/
theorem armedSampleTestsThePreconditions : Obligations.ArmedSampleTestsThePreconditions := by
  intro s n f m hhears hmode hfilling htrickle hnew
  have hservice : (s.lane n).seq.mode ≠ .outOfService := fun h => nomatch h.symm.trans hmode
  have hnot : ((s.atStage5 n f ((s.lane n).staged s.clock m)).lane n).inFilling = false := by
    rw [State.atStage5_lane]
    exact Bool.and_eq_false_iff.mpr (.inr (beq_false_of_ne hfilling))
  refine ⟨(s.lane n).staged s.clock m,
    (s.atStage5 n f ((s.lane n).staged s.clock m)).stage5Tests n ((s.lane n).recordAfter m)
      ((s.lane n).figuresAfter s.clock m (s.activeTarget n)), (s.lane n).staged_handled s.clock m, ?_, ?_⟩
  · rw [exec_sample_staged hhears hservice hnew, State.stage5_of_not_filling hnot]
  intro l p a
  have hlane : a.lane n = l.staged s.clock m := State.atStage5_lane _ _ _ _
  rw [State.stage5Tests_of_auto (s := a) (by rw [hlane]; exact hmode),
    show (a.lane n).seq.state = l.seq.state by rw [hlane]; rfl]
  cases hst : l.seq.state with
  | idle => exact State.takeUp_takesUp a n
  | armed => exact fun o ho => State.testArmed_tests (s := a) ho
  | gangWait =>
    intro o ho
    rw [← hlane]
    exact State.decideGangWait_eq (s := a) ho
  | filling => trivial
  | trickle => trivial
  | cutoff =>
    simp only [State.stage5In, hlane, State.enterSettling_eq]
    rfl
  | settling =>
    intro o d ho hd quiet b
    have hquiet : (a.lane n).quietAfter = quiet := by rw [hlane]; rfl
    have hb : (a.onLane n fun x => x.onSeq fun q => { q with quietRun := quiet }) = b := State.atStage5_onLane_onSeq _ _ _ _ _
    have hdata : (b.lane n).seq.cutoff = some d := (congrArg (fun x : Lane => x.seq.cutoff) (State.atStage5_lane _ _ _ _)).trans hd
    rw [State.stage5In, State.decideSettling_eq, hquiet, hb, show (a.lane n).params = p by rw [hlane]; rfl]
    dsimp only
    split
    · exact State.endSettling_settlingEnds (s := b) ho hdata
    · rfl
  | indexing =>
    intro o ho
    cases hfails : (l.staged s.clock m).failing with
    | nil => exact State.decideIndexing_opens (s := a) ho (by rw [hlane]; exact hfails)
    | cons c rest => exact State.decideIndexing_of_failing (s := a) (by rw [hlane]; exact hfails)
  | fault => rfl

end Sys2Proof.Machine
end

section
/-! SUPPORT. A sample of a lane in FILLING or TRICKLE: the tests of stage 5 in their order, then the regime command
(R40, R98 to R103): O29. -/

namespace Sys2Proof.Machine

/-! ### The tests in FILLING and TRICKLE -/

/-- The trickle command: TRICKLE entered with its position wanted and placed (R103). -/
theorem State.enterTrickle_eq (s : State) (n : LaneId) (position : Nat) :
    (((s.onLane n fun l => l.onSeq fun q => { q with wanted := some position }).enterState n .trickle).placePosition n
        position) = (s.moved n { (s.lane n).seq with state := .trickle }).commanding n position := by
  rw [State.placePosition_eq]
  simp [State.enterState, State.raiseNote, State.onLane, State.putLane, State.lane, Lane.onSeq, State.moved,
    State.commanding]
  rfl

/-- The tests in their order, the open timer seen to (R99 to R103). -/
def State.pourBy (s : State) (n : LaneId) (o : Order) (r : SampleRecord) (fig : Figures) : State :=
  if r.flags.headFault then s.faultClosingAll n .headFault
  else if r.flags.levelProbe then s.cutOff n .levelProbe
  else if r.flags.bellowsDown = false then s.cutOff n .permitLost
  else if fig.cutoffDue then s.cutOff n .preact
  else if (s.lane n).seq.state = .filling ∧ o.noTrickle = false ∧ fig.trickleDue = true then
    (s.moved n { (s.lane n).seq with state := .trickle }).commanding n (s.lane n).params.tricklePosition
  else s

theorem State.pourBy_of_passed {s : State} {n : LaneId} {o : Order} {r : SampleRecord} {fig : Figures}
    (hfault : ¬r.flags.headFault = true) (hlevel : ¬r.flags.levelProbe = true) (hpermit : ¬r.flags.bellowsDown = false)
    (hdue : ¬fig.cutoffDue = true) :
    s.pourBy n o r fig =
      if (s.lane n).seq.state = .filling ∧ o.noTrickle = false ∧ fig.trickleDue = true then
        (s.moved n { (s.lane n).seq with state := .trickle }).commanding n (s.lane n).params.tricklePosition
      else s :=
  (if_neg hfault).trans ((if_neg hlevel).trans ((if_neg hpermit).trans (if_neg hdue)))

theorem State.decidePouring_eq {s t : State} {n : LaneId} {o : Order} (r : SampleRecord) (fig : Figures)
    (ht : (s.onLane n fun l =>
      if l.params.closedBand < r.gate then l.onSeq fun q => { q with openTimer := none } else l) = t)
    (ho : s.activeOrder n = some o) : s.decidePouring n r fig = t.pourBy n o r fig := by
  have hno : (t.activeOrder n).any (·.noTrickle) = o.noTrickle := by
    rw [show t.activeOrder n = some o by rw [← ht]; exact ho]
    rfl
  unfold State.decidePouring State.pourBy
  rw [ht]
  simp only [hno, State.enterTrickle_eq, Bool.and_eq_true, Bool.not_eq_true', beq_iff_eq, and_assoc,
    and_comm (a := fig.trickleDue = true)]

/-! ### The regime command -/

theorem State.regimeCommand_eq (s : State) (n : LaneId) (left : Regime) :
    s.regimeCommand n left = ((s.lane n).regimePosition left).elim s (s.commanding n) := by
  unfold State.regimeCommand
  cases (s.lane n).regimePosition left with
  | none => rfl
  | some position => exact State.commanding_eq s n position

theorem Lane.inFilling_iff (l : Lane) : l.inFilling = true ↔ l.seq.mode = .auto ∧ l.seq.state = .filling := by
  simp [Lane.inFilling]

/-- A lane that its tests have taken out of FILLING, or that was in TRICKLE, gets no regime command. -/
theorem State.stage5_of_leaves {s t : State} {n : LaneId} {r : SampleRecord} {fig : Figures} (left : Option Regime)
    (ht : s.stage5Tests n r fig = t) (hleaves : (t.lane n).seq.state ≠ .filling) : s.stage5 n r left fig = t := by
  have hnot : ¬((s.lane n).inFilling && (t.lane n).inFilling) = true := fun h =>
    hleaves ((Lane.inFilling_iff _).mp (Bool.and_eq_true_iff.mp h).2).2
  unfold State.stage5
  rw [ht]
  cases left with
  | none => rfl
  | some old => exact if_neg hnot

/-- A lane that stays in FILLING gets the regime command, the last act (R40). -/
theorem State.stage5_of_stays {s t : State} {n : LaneId} {r : SampleRecord} {fig : Figures} (left : Option Regime)
    (ht : s.stage5Tests n r fig = t) (hs : (s.lane n).inFilling = true) (hstays : (t.lane n).inFilling = true) :
    s.stage5 n r left fig = left.elim t (t.regimeCommand n) := by
  unfold State.stage5
  rw [ht]
  cases left with
  | none => rfl
  | some old => exact if_pos (by rw [hs, hstays]; rfl)

/-! ### The state that the tests see -/

/-- The state at stage 5 of a sample in FILLING or TRICKLE once the open timer has stopped where the gate has left its
closed band (R98). -/
def State.atPouring (s : State) (n : LaneId) (f : Frame) (m : Meas) : State :=
  s.atStage5 n f { (s.lane n).staged s.clock m with seq := { ((s.lane n).staged s.clock m).seq with
    openTimer := if (s.lane n).params.closedBand < m.gate then none else (s.lane n).seq.openTimer } }

theorem State.atPouring_lane (s : State) (n : LaneId) (f : Frame) (m : Meas) :
    (s.atPouring n f m).lane n = { (s.lane n).staged s.clock m with seq := { ((s.lane n).staged s.clock m).seq with
      openTimer := if (s.lane n).params.closedBand < m.gate then none else (s.lane n).seq.openTimer } } :=
  State.atStage5_lane _ _ _ _

theorem State.putLane_atStage5 {s : State} {n : LaneId} {f : Frame} {l l' : Lane} (hzero : l'.zero = l.zero)
    (hcls : l'.cls = l.cls) : (s.atStage5 n f l).putLane n l' = s.atStage5 n f l' := by
  simp [State.putLane, State.atStage5, hzero, hcls]

theorem State.onLane_atStage5_pouring (s : State) (n : LaneId) (f : Frame) (m : Meas) :
    ((s.atStage5 n f ((s.lane n).staged s.clock m)).onLane n fun l =>
      if l.params.closedBand < ((s.lane n).recordAfter m).gate then l.onSeq fun q => { q with openTimer := none } else l) =
      s.atPouring n f m := by
  have hopen : (if (s.lane n).params.closedBand < m.gate then
        ((s.lane n).staged s.clock m).onSeq fun q => { q with openTimer := none }
      else (s.lane n).staged s.clock m) =
      { (s.lane n).staged s.clock m with seq := { ((s.lane n).staged s.clock m).seq with
        openTimer := if (s.lane n).params.closedBand < m.gate then none else (s.lane n).seq.openTimer } } := by
    split <;> rfl
  unfold State.onLane
  rw [State.atStage5_lane]
  exact (congrArg (State.putLane _ n) hopen).trans (State.putLane_atStage5 rfl rfl)

/-- The tests of a sample in FILLING or TRICKLE. -/
theorem State.stage5Tests_pouring {s : State} {n : LaneId} {o : Order} (f : Frame) (m : Meas) (fig : Figures)
    (hmode : (s.lane n).seq.mode = .auto) (hst : (s.lane n).seq.state = .filling ∨ (s.lane n).seq.state = .trickle)
    (ho : s.activeOrder n = some o) :
    (s.atStage5 n f ((s.lane n).staged s.clock m)).stage5Tests n ((s.lane n).recordAfter m) fig =
      (s.atPouring n f m).pourBy n o ((s.lane n).recordAfter m) fig := by
  rw [State.stage5Tests_of_auto (by rw [State.atStage5_lane]; exact hmode), State.atStage5_lane,
    show ((s.lane n).staged s.clock m).seq.state = (s.lane n).seq.state from rfl]
  rcases hst with h | h <;> rw [h] <;> exact State.decidePouring_eq _ fig (s.onLane_atStage5_pouring n f m) ho

/-- The preact test is R67's. -/
theorem Lane.cutoffDue_iff {l : Lane} (now : BitVec 32) (m : Meas) (targetKg : Nat) (hmode : l.seq.mode = .auto)
    (hst : l.seq.state = .filling ∨ l.seq.state = .trickle) :
    (l.figuresAfter now m targetKg).cutoffDue = true ↔
      ((targetKg * 1000 : Nat) : Int) ≤ (l.staged now m).integ.grams
        + max 0 ((((l.staged now m).flow.flow * l.params.fallTime / 1000 : Nat) : Int)
            + l.trims.get (l.staged now m).cls.active) := by
  refine ((l.stage4_eq now m targetKg).2 hmode hst).1.trans ?_
  generalize (((l.staged now m).flow.flow * l.params.fallTime / 1000 : Nat) : Int)
    + l.trims.get (l.staged now m).cls.active = x
  omega

/-- The trickle test is R68's. -/
theorem Lane.trickleDue_iff {l : Lane} {now : BitVec 32} {m : Meas} {targetKg : Nat} (hmode : l.seq.mode = .auto)
    (hst : l.seq.state = .filling) (hcut : (l.figuresAfter now m targetKg).cutoffDue = false) :
    (l.figuresAfter now m targetKg).trickleDue = true ↔
      targetKg * 1000 - l.params.trickleBand * 1000 ≤ (l.staged now m).integ.grams :=
  ((l.stage4_eq now m targetKg).2 hmode (.inl hst)).2 hst hcut

/-- What the regime command of a sample that leaves the lane in FILLING does (R40). -/
theorem State.stage5_regime {s : State} {n : LaneId} {f : Frame} {m : Meas} {r : SampleRecord} {fig : Figures}
    (hmode : (s.lane n).seq.mode = .auto) (hfill : (s.lane n).seq.state = .filling)
    (hstays : (s.atStage5 n f ((s.lane n).staged s.clock m)).stage5Tests n r fig = s.atPouring n f m) :
    (s.atStage5 n f ((s.lane n).staged s.clock m)).stage5 n r ((s.lane n).regimeLeft s.clock m) fig =
      let now := ((s.lane n).staged s.clock m).cls.active
      let before := (s.lane n).cls.active
      let p := (s.lane n).params
      if now ≠ before ∧ now = .flushing then (s.atPouring n f m).commanding n (min p.flushPosition p.fillPosition)
      else if now ≠ before ∧ before = .flushing then (s.atPouring n f m).commanding n p.fillPosition
      else s.atPouring n f m := by
  have hin : ((s.atPouring n f m).lane n).inFilling = true := by
    rw [Lane.inFilling_iff, State.atPouring_lane]
    exact ⟨hmode, hfill⟩
  rw [State.stage5_of_stays _ hstays (by rw [Lane.inFilling_iff, State.atStage5_lane]; exact ⟨hmode, hfill⟩) hin]
  unfold Lane.regimeLeft
  dsimp only
  by_cases hsame : ((s.lane n).staged s.clock m).cls.active = (s.lane n).cls.active
  · rw [if_pos hsame, if_neg fun h => h.1 hsame, if_neg fun h => h.1 hsame]
    rfl
  · rw [if_neg hsame, Option.elim_some, State.regimeCommand_eq, State.atPouring_lane]
    unfold Lane.regimePosition
    simp only [hsame, ne_eq, not_false_eq_true, true_and]
    split
    · rfl
    · split <;> rfl

/-- A placed position leaves the lane in its state. -/
theorem State.commanding_lane_state (s : State) (n : LaneId) (position : Nat) :
    ((s.commanding n position).lane n).seq.state = (s.lane n).seq.state := by
  simp [State.commanding, State.lane]

/-- An entry to FAULT takes the lane out of FILLING. -/
theorem State.faultClosingAll_leaves_filling (s : State) (n : LaneId) (cause : FaultCause) :
    ((s.faultClosingAll n cause).lane n).seq.state ≠ .filling := by
  unfold State.faultClosingAll
  rw [(State.enterFault_stands _ n cause).1]
  exact nofun

/-- Settles O29, by the tests in their order. -/
theorem pouringSampleIsDecidedInOrder : Obligations.PouringSampleIsDecidedInOrder := by
  intro s n f m o hhears hmode hst hnew ho
  have hservice : (s.lane n).seq.mode ≠ .outOfService := fun h => nomatch h.symm.trans hmode
  refine ⟨_, _, (s.lane n).staged_handled s.clock m, exec_sample_staged hhears hservice hnew, ?_⟩
  intro l p seq a preact target cut
  have hlane : a.lane n = { l.staged s.clock m with seq } := s.atPouring_lane n f m
  have htests {t : State} (ht : a.pourBy n o (l.recordAfter m) (l.figuresAfter s.clock m (s.activeTarget n)) = t) :
      (s.atStage5 n f (l.staged s.clock m)).stage5Tests n (l.recordAfter m)
        (l.figuresAfter s.clock m (s.activeTarget n)) = t :=
    (State.stage5Tests_pouring f m _ hmode hst ho).trans ht
  have htarget : s.activeTarget n * 1000 = target := by
    unfold State.activeTarget
    rw [ho]
    rfl
  have hdue := Lane.cutoffDue_iff s.clock m (s.activeTarget n) hmode hst
  rw [htarget] at hdue
  have hcut (cause : CutCause)
      (ht : a.pourBy n o (l.recordAfter m) (l.figuresAfter s.clock m (s.activeTarget n)) = a.cutOff n cause) :
      ∃ urgent, s.ClosesPlaced [(n, .headClose)] urgent ∧
        (s.atStage5 n f (l.staged s.clock m)).stage5 n (l.recordAfter m) (l.regimeLeft s.clock m)
          (l.figuresAfter s.clock m (s.activeTarget n)) = a.cutTo n cause urgent :=
    ⟨_, State.closesPlaced_one s n .headClose, by
      rw [State.stage5_of_leaves _ (htests ht) (by rw [State.cutOff_lane_self]; exact nofun), State.cutOff_eq]
      rfl⟩
  split
  case isTrue hfault =>
    have ht := htests (if_pos hfault)
    refine ⟨_, State.closesPlaced_both s n, ?_⟩
    rw [State.stage5_of_leaves _ ht (State.faultClosingAll_leaves_filling _ _ _),
      State.faultClosingAll_eq (s := a) .headFault ho, hlane,
      Lane.faultResult_of_pouring (l := { l.staged s.clock m with seq }) hst o]
    rfl
  case isFalse hfault =>
  split
  case isTrue hlevel => exact hcut .levelProbe ((if_neg hfault).trans (if_pos hlevel))
  case isFalse hlevel =>
  split
  case isTrue hpermit => exact hcut .permitLost ((if_neg hfault).trans ((if_neg hlevel).trans (if_pos hpermit)))
  case isFalse hpermit =>
  split
  case isTrue hpreact =>
    exact hcut .preact ((if_neg hfault).trans ((if_neg hlevel).trans ((if_neg hpermit).trans (if_pos (hdue.mpr hpreact)))))
  case isFalse hpreact =>
  have hnotdue := mt hdue.mp hpreact
  have hpassed := State.pourBy_of_passed (s := a) (n := n) (o := o) (r := l.recordAfter m) hfault hlevel hpermit hnotdue
  have hstate : (a.lane n).seq.state = l.seq.state := by
    rw [hlane]
    rfl
  have htrickle : ((a.lane n).seq.state = .filling ∧ o.noTrickle = false
        ∧ (l.figuresAfter s.clock m (s.activeTarget n)).trickleDue = true) ↔
      l.seq.state = .filling ∧ o.noTrickle = false ∧ target - p.trickleBand * 1000 ≤ (l.staged s.clock m).integ.grams := by
    rw [hstate, ← htarget]
    exact and_congr_right fun hfill => and_congr_right fun _ =>
      Lane.trickleDue_iff hmode hfill (Bool.not_eq_true _ ▸ hnotdue)
  split
  case isTrue hdueNow =>
    rw [State.stage5_of_leaves _ (htests (hpassed.trans (if_pos (htrickle.mpr hdueNow)))) ?_, hlane]
    · rfl
    · rw [State.commanding_lane_state, State.moved_lane_self]
      exact nofun
  case isFalse hnotNow =>
  have hstays := htests (hpassed.trans (if_neg (mt htrickle.mp hnotNow)))
  by_cases hfill : l.seq.state = .filling
  · have hregime := State.stage5_regime hmode hfill hstays
    by_cases hinto : (l.staged s.clock m).cls.active ≠ l.cls.active ∧ (l.staged s.clock m).cls.active = .flushing
    · rw [if_pos ⟨hfill, hinto⟩]
      exact hregime.trans (if_pos hinto)
    rw [if_neg fun h => hinto h.2]
    by_cases hout : (l.staged s.clock m).cls.active ≠ l.cls.active ∧ l.cls.active = .flushing
    · rw [if_pos ⟨hfill, hout⟩]
      exact hregime.trans ((if_neg hinto).trans (if_pos hout))
    · rw [if_neg fun h => hout h.2]
      exact hregime.trans ((if_neg hinto).trans (if_neg hout))
  · rw [State.stage5_of_leaves _ hstays (by rw [hstate]; exact hfill), if_neg fun h => hfill h.1, if_neg fun h => hfill h.1]

end Sys2Proof.Machine
end
